-- ==== Sys2Proof/Word.lean ====
section
/-! DEFINITION. The word types of the block: a frame byte (R9) and one output duration (R10, OUT_W = 16). -/

namespace Sys2Proof

/-- A byte of a frame, 8 bits, bit 0 the least significant (R9). -/
abbrev Byte := BitVec 8

/-- One entry of the output sequence: microseconds, `OUT_W` = 16 bits unsigned (R8, R10). -/
abbrev Duration := BitVec 16

end Sys2Proof
end

