-- ==== Sys2Proof/Machine/Constants.lean ====
section
/-! DEFINITION. The hardwired constants of the block (R7, R35, R139, R160), each named once. The literals are
unaudited and taken as printed (D20, log entry 18). -/

namespace Sys2Proof.Machine

/-- `T_MARK`: the mark of a data bit (R7). -/
def tMark : Duration := 440

/-- `T_SPACE0`: the space of a logical 0 (R7). -/
def tSpace0 : Duration := 440

/-- `T_SPACE1`: the space of a logical 1 (R7). -/
def tSpace1 : Duration := 1300

/-- `BIT0` (R160). -/
def symBit0 : List Duration := [tMark, tSpace0]

/-- `BIT1` (R160). -/
def symBit1 : List Duration := [tMark, tSpace1]

/-- `LEADER`: ten entries of 440 (R160). -/
def symLeader : List Duration := List.replicate 10 440

/-- `MARKER` (R160). -/
def symMarker : List Duration := [440, 25250, 3450, 1750]

/-- `STOP`, one `BIT0` (R160). -/
def symStop : List Duration := [440, 440]

/-- `SEQ_LEN` (R7). -/
def seqLen : Nat := 644

/-- `HDR`: the constant header of both frames (R7, R121, R126). -/
def frameHeader : List Byte := [17, 218, 39, 0]

/-- The bit of FA[8] that says that fan is "nice" (R122). -/
def niceBit : Byte := 0x10

/-- Bit 3 of FB[5], always 1, meaning unknown (R71, U1). -/
def flagsConstant : Byte := 1 <<< 3

/-- The bits 7 and 6 of the autotemp form of FB[6] (R130). -/
def autotempForm : Byte := 0xC0

/-- FB[7] under auto and dry (R131). -/
def autoDryByte : Byte := 0x80

/-- The low nibble of FB[8] with swing on (R132). -/
def swingNibble : Byte := 0xF

/-- FB[15] (R135). -/
def constantFb15 : Byte := 0xC1

/-- The constant bit of FB[16] (R135). -/
def constantFb16 : Byte := 0x80

/-- The streamer bit of FB[16] (R135). -/
def streamerBit : Byte := 0x10

/-- The factor of a timer value (R133). -/
def timerFactor : Int := 15

/-- The bit of T where an enabled on-timer stands (R133). -/
def onShift : Nat := 10

/-- The bit of T where the sentinel of a disabled on-timer stands (R133). -/
def onOffShift : Nat := 17

/-- The bit of T where an enabled off-timer stands (R133). -/
def offShift : Nat := 22

/-- The bit of T where the sentinel of a disabled off-timer stands (R133). -/
def offOffShift : Nat := 29

/-- The sentinel of a disabled timer (R133). -/
def timerSentinel : BitVec 32 := 0b11

end Sys2Proof.Machine
end

