-- ==== Sys2Proof/Syntax.lean ====
section
/-! DEFINITION. The operations of the block: one constructor per row of spec/opcode_table.json, in the table's
order. The operands are those the rows give (R90, R92). -/

namespace Sys2Proof

/-- The two frame buffers (R26, R27). -/
inductive FrameName
  | A
  | B
  deriving DecidableEq, Repr

/-- `FA_LEN` = 20 and `FB_LEN` = 19 (R7): the bytes of a frame, its checksum included. -/
def FrameName.length : FrameName → Nat
  | .A => 20
  | .B => 19

/-- The operations. The rows of the table are of three kinds: the operations R90 names; the frame bytes, each
the part of BUILD.A or BUILD.B (or of the checksum) that writes that byte or byte group; the pulse symbols, each
the emission of that symbol. -/
inductive Instr
  -- the operations of R90
  | encode
  | loadDefaults
  | normTemperature
  | normAutotemp
  | normFan
  | normSwing
  | normState
  | normMode
  | normOntimer
  | normOfftimer
  | normStreamer
  | buildA
  | buildB
  | csumA
  | csumB
  | emitLeader
  | emitMarker
  | emitStop
  | emitBit (b : Bool)
  | emitByte (v : Byte)
  | emitFrame (f : FrameName) (n : Nat)
  | sequence
  -- the bytes of Frame A (R61, R120 to R124, R151)
  | fa0
  | fa1
  | fa2
  | fa3
  | fa4
  | fa5to7
  | fa8
  | fa9to18
  | fa19
  -- the bytes of Frame B (R70, R125 to R136, R152)
  | fb0
  | fb1
  | fb2
  | fb3
  | fb4
  | fb5
  | fb6Autodry
  | fb6Coldhot
  | fb6Fan
  | fb7
  | fb8
  | fb9
  | fb10
  | fb11
  | fb12
  | fb13to14
  | fb15
  | fb16
  | fb17
  | fb18
  -- the pulse symbols (R82)
  | bit0
  | bit1
  | leader
  | marker
  | stop
  deriving DecidableEq, Repr

end Sys2Proof
end

