-- ==== Sys2Proof/WellFormed.lean ====
section
/-! DEFINITION. Which operations the spec admits: the one operand with a condition is the length that EMIT.FRAME
is given (R166: "a frame buffer F (FA or FB) and its length n (20 or 19)"). -/

namespace Sys2Proof

/-- R166: the length operand of EMIT.FRAME is the length of the frame it names. Every other operand may take
every value of its type. -/
def Instr.wf : Instr → Bool
  | .emitFrame f n => n == f.length
  | _ => true

end Sys2Proof
end

