-- ==== Sys2Proof/Decode.lean ====
section
/-! DEFINITION. The operation words of the model, their decoder and their encoder. THE SPEC GIVES THE OPERATIONS NO
OPCODES (R90); the words are the model's own (DESIGN CHOICE, log entries 1 and 2). A word is two bytes, the operand
byte at the lower address and then the number of the operation's row in spec/opcode_table.json, counted from 1.
The operand byte is what the table's `encoding` column holds where it holds one: the slot number of a NORM
operation, the constant bits of a frame byte (R92). Row number 0 names no row. -/

namespace Sys2Proof

/-- Why bytes are no operation word. -/
inductive DecodeError
  /-- fewer than two bytes are left -/
  | truncated
  /-- no row of the table has this number -/
  | unknownRow (row : Nat)
  /-- the operand byte is none that the row admits -/
  | badOperand (row : Nat) (operand : Byte)
  /-- the operand byte lacks the constant bits of the frame byte that the row writes -/
  | constantBits (row : Nat) (operand : Byte)
  /-- row number 0, and the operand byte carries the constant bits of no frame byte -/
  | noPattern (operand : Byte)
  deriving DecidableEq, Repr

/-- The bit pattern of a frame byte: its constant bits and where they stand (`match` and `mask` of the table, R92). -/
structure Pattern where
  const : Byte
  mask : Byte
  deriving DecidableEq, Repr

/-- R92: the patterns of the frame bytes (R61, R70). -/
def framePattern : Instr → Option Pattern
  | .fa0 => some ⟨0x11, 0xFF⟩
  | .fa1 => some ⟨0xDA, 0xFF⟩
  | .fa2 => some ⟨0x27, 0xFF⟩
  | .fa3 => some ⟨0x00, 0xFF⟩
  | .fa4 => some ⟨0x01, 0xFF⟩
  | .fa5to7 => some ⟨0x00, 0xFF⟩
  | .fa8 => some ⟨0x00, 0xEF⟩
  | .fa9to18 => some ⟨0x00, 0xFF⟩
  | .fa19 => some ⟨0x00, 0x00⟩
  | .fb0 => some ⟨0x11, 0xFF⟩
  | .fb1 => some ⟨0xDA, 0xFF⟩
  | .fb2 => some ⟨0x27, 0xFF⟩
  | .fb3 => some ⟨0x00, 0xFF⟩
  | .fb4 => some ⟨0x00, 0xFF⟩
  | .fb5 => some ⟨0x08, 0x08⟩
  | .fb6Autodry => some ⟨0xC0, 0xE1⟩
  | .fb6Coldhot => some ⟨0x00, 0xC1⟩
  | .fb6Fan => some ⟨0x00, 0xFF⟩
  | .fb7 => some ⟨0x00, 0x7F⟩
  | .fb8 => some ⟨0x00, 0x00⟩
  | .fb9 => some ⟨0x00, 0xFF⟩
  | .fb10 => some ⟨0x00, 0x03⟩
  | .fb11 => some ⟨0x00, 0x38⟩
  | .fb12 => some ⟨0x00, 0x80⟩
  | .fb13to14 => some ⟨0x00, 0xFF⟩
  | .fb15 => some ⟨0xC1, 0xFF⟩
  | .fb16 => some ⟨0x80, 0xEF⟩
  | .fb17 => some ⟨0x00, 0xFF⟩
  | .fb18 => some ⟨0x00, 0x00⟩
  | .encode | .loadDefaults | .normTemperature | .normAutotemp | .normFan | .normSwing | .normState | .normMode
  | .normOntimer | .normOfftimer | .normStreamer | .buildA | .buildB | .csumA | .csumB | .emitLeader | .emitMarker
  | .emitStop | .emitBit _ | .emitByte _ | .emitFrame _ _ | .sequence | .bit0 | .bit1 | .leader | .marker
  | .stop => none

/-- The number of an operation's row in spec/opcode_table.json, counted from 1. -/
def rowNumber : Instr → Nat
  | .encode => 1
  | .loadDefaults => 2
  | .normTemperature => 3
  | .normAutotemp => 4
  | .normFan => 5
  | .normSwing => 6
  | .normState => 7
  | .normMode => 8
  | .normOntimer => 9
  | .normOfftimer => 10
  | .normStreamer => 11
  | .buildA => 12
  | .buildB => 13
  | .csumA => 14
  | .csumB => 15
  | .emitLeader => 16
  | .emitMarker => 17
  | .emitStop => 18
  | .emitBit _ => 19
  | .emitByte _ => 20
  | .emitFrame _ _ => 21
  | .sequence => 22
  | .fa0 => 23
  | .fa1 => 24
  | .fa2 => 25
  | .fa3 => 26
  | .fa4 => 27
  | .fa5to7 => 28
  | .fa8 => 29
  | .fa9to18 => 30
  | .fa19 => 31
  | .fb0 => 32
  | .fb1 => 33
  | .fb2 => 34
  | .fb3 => 35
  | .fb4 => 36
  | .fb5 => 37
  | .fb6Autodry => 38
  | .fb6Coldhot => 39
  | .fb6Fan => 40
  | .fb7 => 41
  | .fb8 => 42
  | .fb9 => 43
  | .fb10 => 44
  | .fb11 => 45
  | .fb12 => 46
  | .fb13to14 => 47
  | .fb15 => 48
  | .fb16 => 49
  | .fb17 => 50
  | .fb18 => 51
  | .bit0 => 52
  | .bit1 => 53
  | .leader => 54
  | .marker => 55
  | .stop => 56

/-- The operation without an operand that a row number names (none for EMIT.BIT, EMIT.BYTE and EMIT.FRAME). -/
def plainRow : Nat → Option Instr
  | 1 => some .encode
  | 2 => some .loadDefaults
  | 3 => some .normTemperature
  | 4 => some .normAutotemp
  | 5 => some .normFan
  | 6 => some .normSwing
  | 7 => some .normState
  | 8 => some .normMode
  | 9 => some .normOntimer
  | 10 => some .normOfftimer
  | 11 => some .normStreamer
  | 12 => some .buildA
  | 13 => some .buildB
  | 14 => some .csumA
  | 15 => some .csumB
  | 16 => some .emitLeader
  | 17 => some .emitMarker
  | 18 => some .emitStop
  | 22 => some .sequence
  | 23 => some .fa0
  | 24 => some .fa1
  | 25 => some .fa2
  | 26 => some .fa3
  | 27 => some .fa4
  | 28 => some .fa5to7
  | 29 => some .fa8
  | 30 => some .fa9to18
  | 31 => some .fa19
  | 32 => some .fb0
  | 33 => some .fb1
  | 34 => some .fb2
  | 35 => some .fb3
  | 36 => some .fb4
  | 37 => some .fb5
  | 38 => some .fb6Autodry
  | 39 => some .fb6Coldhot
  | 40 => some .fb6Fan
  | 41 => some .fb7
  | 42 => some .fb8
  | 43 => some .fb9
  | 44 => some .fb10
  | 45 => some .fb11
  | 46 => some .fb12
  | 47 => some .fb13to14
  | 48 => some .fb15
  | 49 => some .fb16
  | 50 => some .fb17
  | 51 => some .fb18
  | 52 => some .bit0
  | 53 => some .bit1
  | 54 => some .leader
  | 55 => some .marker
  | 56 => some .stop
  | _ => none

/-- The rows that have constant bits, in the table's order. -/
def patternedRows : List Instr :=
  [.fa0, .fa1, .fa2, .fa3, .fa4, .fa5to7, .fa8, .fa9to18, .fb0, .fb1, .fb2, .fb3, .fb4, .fb5, .fb6Autodry,
   .fb6Coldhot, .fb6Fan, .fb7, .fb9, .fb10, .fb11, .fb12, .fb13to14, .fb15, .fb16, .fb17]

/-- How many bits of a byte are 1. -/
def onesOf (v : Byte) : Nat := ((List.range 8).filter v.getLsbD).length

/-- The byte carries the constant bits of the frame byte that the operation writes. -/
def carries (v : Byte) (i : Instr) : Bool :=
  match framePattern i with
  | some p => v &&& p.mask == p.const
  | none => false

/-- How many constant bits the frame byte has that the operation writes. -/
def constantBitsOf (i : Instr) : Nat :=
  match framePattern i with
  | some p => onesOf p.mask
  | none => 0

/-- Row number 0 (DESIGN CHOICE, log entry 2): of the frame bytes whose constant bits the operand byte carries, the
one with the most constant bits, the earliest of the table among equals. -/
def mostSpecificRow (v : Byte) : Option Instr :=
  [8, 7, 6, 5, 4, 3, 2, 1].findSome? fun n => patternedRows.find? fun i => carries v i && constantBitsOf i == n

/-- The operand byte of EMIT.FRAME: the frame in bit 5, the length in bits 4 to 0, bits 7 and 6 zero. -/
def frameOperand (f : FrameName) (n : Nat) : Byte :=
  match f with
  | .A => BitVec.ofNat 8 n
  | .B => BitVec.ofNat 8 (32 + n)

/-- The operand byte of an operation's word. -/
def operandByte : Instr → Byte
  | .normTemperature => 0
  | .normAutotemp => 1
  | .normFan => 2
  | .normSwing => 3
  | .normState => 4
  | .normMode => 5
  | .normOntimer => 6
  | .normOfftimer => 7
  | .normStreamer => 8
  | .emitBit b => if b then 1 else 0
  | .emitByte v => v
  | .emitFrame f n => frameOperand f n
  | i => match framePattern i with
    | some p => p.const
    | none => 0

/-- The operand of EMIT.BIT. -/
def decodeBit (v : Byte) : Except DecodeError Instr :=
  if v = 0 then .ok (.emitBit false) else if v = 1 then .ok (.emitBit true) else .error (.badOperand 19 v)

/-- The operands of EMIT.FRAME: only the frames with their own lengths are well-formed (R166). -/
def decodeFrame (v : Byte) : Except DecodeError Instr :=
  if v = frameOperand .A 20 then .ok (.emitFrame .A 20)
  else if v = frameOperand .B 19 then .ok (.emitFrame .B 19)
  else .error (.badOperand 21 v)

/-- The operation that a row number and an operand byte name. -/
def decodeRow (row : Nat) (v : Byte) : Except DecodeError Instr :=
  if row = 0 then
    match mostSpecificRow v with
    | some i => .ok i
    | none => .error (.noPattern v)
  else if row = 19 then decodeBit v
  else if row = 20 then .ok (.emitByte v)
  else if row = 21 then decodeFrame v
  else
    match plainRow row with
    | none => .error (.unknownRow row)
    | some i =>
      match framePattern i with
      | some p => if v &&& p.mask = p.const then .ok i else .error (.constantBits row v)
      | none => if v = operandByte i then .ok i else .error (.badOperand row v)

/-- The decoder: the operation in the first two bytes, and the bytes after it. Total on any bytes. -/
def decode : List Byte → Except DecodeError (Instr × List Byte)
  | v :: row :: rest =>
    match decodeRow row.toNat v with
    | .ok i => .ok (i, rest)
    | .error e => .error e
  | _ => .error .truncated

/-- The encoder: the word of an operation. -/
def encode (i : Instr) : List Byte := [operandByte i, BitVec.ofNat 8 (rowNumber i)]

/-- The bytes of a word of `nbits` bits numbered as the table numbers them: the first byte holds bits 7 to 0, and
every bit of the two-byte operation word above `nbits` is 0. -/
def tableBytes (nbits w : Nat) : List Byte :=
  [BitVec.ofNat 8 (w % 2 ^ nbits), BitVec.ofNat 8 (w % 2 ^ nbits / 256)]

/-- What the decoder reads from a table word: none where it refuses, and where the word has more than two bytes. -/
def decodeTableWord (nbits w : Nat) : Option Instr :=
  if w % 2 ^ nbits < 65536 then
    match decode (tableBytes nbits w) with
    | .ok (i, _) => some i
    | .error _ => none
  else none

end Sys2Proof
end

