-- ==== Sys2Proof/Config.lean ====
section
/-! DEFINITION. The parameters that the spec itself adds to the source (R8), and the one free value of the model. -/

namespace Sys2Proof

/-- `HAS_SUBST_REPORT` (R8, R34): whether the SUBST bits exist after `State.reset`; the spec takes false.
Every operation is defined for both variants (`State.subst` is the register where it is present). -/
def Config.hasSubstReport : Bool := false

/-- `CASEFOLD_NAMES` (R8, R186): whether the presenter folds field names to lower case; the spec takes false. -/
def Config.casefoldNames : Bool := false

/-- `HAS_DEBUG_TAPS` (R8, R212): whether P, T, FA and FB can be observed; true in a model. -/
def Config.hasDebugTaps : Bool := true

/-- FREE VALUE. R188: a symbol code above 6 "stands for a string that is none of these"; the spec does not say
which string. Nothing about this function can be proved (log entry 6). -/
opaque Config.unlistedString : Nat → String

end Sys2Proof
end

