-- ==== Sys2Proof/Machine/Values.lean ====
section
/-! DEFINITION. The data the registers hold: raw values and slots (R21), the nine fields, and the values of the
property registers by their domains (R22, R23). A property register holds a value of its domain and nothing else,
as R22 and R137 allow; the internal codes of R22 are views. -/

namespace Sys2Proof.Machine

/-- A raw value, before any check (R21). No conversion between the classes is ever made. -/
inductive Raw
  /-- a number whose value is an integer, any sign -/
  | int (z : Int)
  /-- a boolean -/
  | bool (b : Bool)
  /-- a symbol: a character string -/
  | sym (s : String)
  /-- anything else: a non-integer number, a missing or null value, a compound value -/
  | other
  deriving DecidableEq, Repr

/-- A slot of the command port: absent (`none`) or present with a raw value (R21). -/
abbrev Slot := Option Raw

/-- The nine fields (R22), in slot order. -/
inductive Field
  | temperature
  | autotemp
  | fan
  | swing
  | state
  | mode
  | ontimer
  | offtimer
  | streamer
  deriving DecidableEq, Repr

/-- R186: the slot numbers. -/
def Field.slot : Field → Nat
  | .temperature => 0
  | .autotemp => 1
  | .fan => 2
  | .swing => 3
  | .state => 4
  | .mode => 5
  | .ontimer => 6
  | .offtimer => 7
  | .streamer => 8

/-- The nine slots: a PartialCommand (R12, R186). -/
structure PartialCommand where
  temperature : Slot
  autotemp : Slot
  fan : Slot
  swing : Slot
  state : Slot
  mode : Slot
  ontimer : Slot
  offtimer : Slot
  streamer : Slot
  deriving DecidableEq, Repr

/-- The command that fills no slot, `ENCODE` with an empty list (R91). -/
def PartialCommand.empty : PartialCommand :=
  ⟨none, none, none, none, none, none, none, none, none⟩

/-- One slot of a command. -/
def PartialCommand.get (c : PartialCommand) : Field → Slot
  | .temperature => c.temperature
  | .autotemp => c.autotemp
  | .fan => c.fan
  | .swing => c.swing
  | .state => c.state
  | .mode => c.mode
  | .ontimer => c.ontimer
  | .offtimer => c.offtimer
  | .streamer => c.streamer

/-- A command with one slot replaced. -/
def PartialCommand.set (c : PartialCommand) (f : Field) (x : Slot) : PartialCommand :=
  match f with
  | .temperature => { c with temperature := x }
  | .autotemp => { c with autotemp := x }
  | .fan => { c with fan := x }
  | .swing => { c with swing := x }
  | .state => { c with state := x }
  | .mode => { c with mode := x }
  | .ontimer => { c with ontimer := x }
  | .offtimer => { c with offtimer := x }
  | .streamer => { c with streamer := x }

/-- R22: the domain of P[temperature]. -/
abbrev Temperature := { z : Int // 14 ≤ z ∧ z ≤ 30 }

/-- R22: the domain of P[autotemp]. -/
abbrev Autotemp := { z : Int // -5 ≤ z ∧ z ≤ 5 }

/-- R22: the domain of P[ontimer] and P[offtimer]. -/
abbrev Timer := { z : Int // 0 ≤ z ∧ z ≤ 12 }

/-- R22: the integers in the domain of P[fan]. -/
abbrev FanSpeed := { z : Int // 1 ≤ z ∧ z ≤ 5 }

/-- R22: the domain of P[fan]. -/
inductive Fan
  | auto
  | speed (n : FanSpeed)
  | quiet
  | nice
  deriving DecidableEq, Repr

/-- R22: the domain of P[mode]. -/
inductive Mode
  | auto
  | dry
  | cold
  | hot
  | fan
  deriving DecidableEq, Repr

/-- The nine property registers P (R22): a Command. -/
structure Command where
  temperature : Temperature
  autotemp : Autotemp
  fan : Fan
  swing : Bool
  state : Bool
  mode : Mode
  ontimer : Timer
  offtimer : Timer
  streamer : Bool
  deriving DecidableEq, Repr

/-- The default of P[temperature], 25 (R22). -/
def dfltTemperature : Temperature := ⟨25, by decide⟩

/-- The default of P[autotemp], 0 (R22). -/
def dfltAutotemp : Autotemp := ⟨0, by decide⟩

/-- The default of P[fan] (R22). -/
def dfltFan : Fan := .auto

/-- The default of P[swing], P[state] and P[streamer] (R22). -/
def dfltBool : Bool := false

/-- The default of P[mode] (R22). -/
def dfltMode : Mode := .auto

/-- The default of P[ontimer] and P[offtimer], 0 (R22). -/
def dfltTimer : Timer := ⟨0, by decide⟩

/-- R22, R100: all nine registers at their defaults. -/
def Command.defaults : Command where
  temperature := dfltTemperature
  autotemp := dfltAutotemp
  fan := dfltFan
  swing := dfltBool
  state := dfltBool
  mode := dfltMode
  ontimer := dfltTimer
  offtimer := dfltTimer
  streamer := dfltBool

/-- R72, R129: the mode codes; 1 and 5 are unused. -/
def Mode.code : Mode → BitVec 3
  | .auto => 0
  | .dry => 2
  | .cold => 3
  | .hot => 4
  | .fan => 6

/-- R22: the internal 3-bit code of P[fan] (not observable, D7). -/
def Fan.bits : Fan → BitVec 3
  | .auto => 0
  | .speed n => BitVec.ofInt 3 n.val
  | .quiet => 6
  | .nice => 7

/-- R22: the internal 5-bit code of P[temperature] (not observable, D7). -/
def temperatureBits (z : Temperature) : BitVec 5 := BitVec.ofInt 5 z.val

/-- R22: the internal 4-bit two's complement code of P[autotemp] (not observable, D7). -/
def autotempBits (z : Autotemp) : BitVec 4 := BitVec.ofInt 4 z.val

/-- R22: the internal 4-bit code of a timer register (not observable, D7). -/
def timerBits (z : Timer) : BitVec 4 := BitVec.ofInt 4 z.val

end Sys2Proof.Machine
end

