-- ==== Sys2Proof/Machine/State.lean ====
section
/-! DEFINITION. The state of the block: the registers of R20, all of them, and two fields that are the model's own
(`ops` and `inputs`, log entries 3 and 4). Plain data. -/

namespace Sys2Proof.Machine

/-- The stages of an operation (R31). -/
inductive Stage
  | idle
  | normalize
  | build
  | checksum
  | emit
  | done
  deriving DecidableEq, Repr

/-- The bytes of one frame buffer (R40): the listed (offset, byte) pairs; an unlisted offset reads as 0, the value
every byte of FA and FB has at reset (R38). -/
abbrev Memory := List Host.Cell

/-- What the outside drives during one step: the caller's reset (R220), start (R185) and slots (R186), and the
consumer's out_ready (R187). -/
structure Pins where
  reset : Bool
  start : Bool
  slots : PartialCommand
  outReady : Bool
  deriving DecidableEq, Repr

/-- The inputs where nothing more is scheduled: no reset, no start, no slot filled, and a consumer that takes every
word (DESIGN CHOICE, log entry 4). -/
def Pins.idle : Pins where
  reset := false
  start := false
  slots := PartialCommand.empty
  outReady := true

/-- The state of the block. -/
structure State where
  /-- RAW[0..8], the captured slots (R20, R21) -/
  raw : PartialCommand
  /-- P[f], the nine property registers (R22) -/
  p : Command
  /-- T, the timer word (R28) -/
  t : BitVec 32
  /-- FA[0..19], the Frame A buffer (R26) -/
  fa : Memory
  /-- FB[0..18], the Frame B buffer (R27) -/
  fb : Memory
  /-- SEQ, the words handed over so far (R29) -/
  seq : List Duration
  /-- STAGE (R31) -/
  stage : Stage
  /-- K, the emission index, 0 to 644 (R31) -/
  k : Nat
  /-- SUBST[8:0], where HAS_SUBST_REPORT is true; `none` where the register does not exist (R34) -/
  subst : Option (BitVec 9)
  /-- the model's own: the operations of the stage in progress still to be performed, as operation words -/
  ops : List Byte
  /-- the model's own: what the outside drives at each coming step, the next one first -/
  inputs : List Pins
  deriving DecidableEq, Repr

/-- Why the block stops. No well-formed operation raises one (R200). -/
inductive Fault
  /-- Raised by EMIT.FRAME alone, when its length operand makes it read an offset that its frame does not have
  (R40, R47): an ill-formed operand, which the decoder refuses (R166). Safe: the model stops. -/
  | noSuchOffset (f : FrameName) (offset : Nat)
  deriving DecidableEq, Repr

/-- Why the model gives no meaning. -/
inductive Refusal
  /-- Raised by an arm of `exec` without a meaning. No arm has none. Safe: the model stops. -/
  | notModelled (mnemonic : String)
  /-- Raised by `step` when the bytes of `ops` are no operation word of the model; no run from reset meets it.
  Safe: the model stops. -/
  | undecodable (e : DecodeError)
  /-- Raised by the presenter when two keys of a command name one slot: "the command has no meaning in this spec
  and a model refuses it" (R186, R214). Safe: the command is not presented. -/
  | duplicateField (f : Field)
  deriving DecidableEq, Repr

/-- The state after reset (R38, R220): STAGE IDLE, K 0, all slots absent, P at the defaults, T, FA and FB zero, SUBST
zero where it exists, no output; and the model's own fields empty. -/
def State.reset : State where
  raw := PartialCommand.empty
  p := Command.defaults
  t := 0
  fa := []
  fb := []
  seq := []
  stage := .idle
  k := 0
  subst := if Config.hasSubstReport then some 0 else none
  ops := []
  inputs := []

end Sys2Proof.Machine
end

