-- ==== Sys2Proof/Machine/Ops.lean ====
section
/-! DEFINITION. The named operations over the frame buffers, the registers and the output sequence (R10, R40 to R46).
The block raises no exception and has no trap mechanism (R200, R206): there is no exception entry and no return
to model. -/

namespace Sys2Proof.Machine

/-- The byte at an offset; an unlisted offset reads as 0 (R38). -/
def Memory.get : Memory → Nat → Byte
  | [], _ => 0
  | c :: m, a => if c.1 = a then c.2 else Memory.get m a

/-- Puts a cell before the first cell of a larger offset. -/
def Memory.insert (c : Host.Cell) : Memory → Memory
  | [] => [c]
  | d :: m => if c.1 < d.1 then c :: d :: m else d :: Memory.insert c m

/-- The buffer with one byte replaced, in canonical form: a zero byte is not listed. -/
def Memory.set (m : Memory) (a : Nat) (v : Byte) : Memory :=
  if v = 0 then m.filter (fun c => c.1 != a) else Memory.insert (a, v) (m.filter (fun c => c.1 != a))

/-- The offsets rise strictly and no listed byte is 0. -/
def Memory.canonical : Memory → Bool
  | [] => true
  | [c] => c.2 != 0
  | c :: d :: m => c.2 != 0 && decide (c.1 < d.1) && Memory.canonical (d :: m)

/-- The canonical form of a buffer of `n` bytes: canonical, and every listed offset exists (R40). -/
def Memory.wf (n : Nat) (m : Memory) : Bool := Memory.canonical m && m.all (fun c => decide (c.1 < n))

/-- The buffer of a frame. -/
def State.frame (s : State) : FrameName → Memory
  | .A => s.fa
  | .B => s.fb

/-- `MemRead(F:i, 1)` (R10, R44). -/
def State.loadByte (s : State) (f : FrameName) (i : Nat) : Byte := (s.frame f).get i

/-- `MemWrite(F:i, 1, v)` (R10, R44). -/
def State.storeByte (s : State) (f : FrameName) (i : Nat) (v : Byte) : State :=
  match f with
  | .A => { s with fa := s.fa.set i v }
  | .B => { s with fb := s.fb.set i v }

/-- The bytes at offsets 0 to n - 1, each by a one-byte read (R44). -/
def State.loadBytes (s : State) (f : FrameName) (n : Nat) : List Byte := (List.range n).map (s.loadByte f)

/-- One-byte writes at rising offsets from `i` on (R44). -/
def State.storeBytes (s : State) (f : FrameName) (i : Nat) : List Byte → State
  | [] => s
  | v :: vs => (s.storeByte f i v).storeBytes f (i + 1) vs

/-- The four bytes of a word, little-endian: T[7:0], T[15:8], T[23:16], T[31:24] (R42). -/
def wordBytes (w : BitVec 32) : List Byte :=
  [w.extractLsb' 0 8, w.extractLsb' 8 8, w.extractLsb' 16 8, w.extractLsb' 24 8]

/-- `MemWrite(F:i, 4, w)` (R10, R42). -/
def State.storeWord (s : State) (f : FrameName) (i : Nat) (w : BitVec 32) : State := s.storeBytes f i (wordBytes w)

/-- `T <- w` (R10). -/
def State.setT (s : State) (w : BitVec 32) : State := { s with t := w }

/-- `P <- p`, all nine registers (R10). -/
def State.setP (s : State) (p : Command) : State := { s with p := p }

/-- `STAGE <- g` (R10). -/
def State.setStage (s : State) (g : Stage) : State := { s with stage := g }

/-- `SEQ <- []; K <- 0` (R167). -/
def State.clearSeq (s : State) : State := { s with seq := [], k := 0 }

/-- R181: the slots are copied into RAW. -/
def State.capture (s : State) (c : PartialCommand) : State := { s with raw := c }

/-- `emit(d)` (R10): the entry is appended and K increases by one. K "never wraps, and stops at 644" (R31): SEQ has
no index 644 (R40), so an emission at K = 644 has no effect (DESIGN CHOICE, log entry 5). -/
def State.emit (s : State) (d : Duration) : State :=
  if s.k < seqLen then { s with seq := s.seq ++ [d], k := s.k + 1 } else s

/-- The entries of a symbol, one after the other. -/
def State.emitAll (s : State) (ds : List Duration) : State := ds.foldl State.emit s

/-- What the outside drives at this step. -/
def State.pins (s : State) : Pins := s.inputs.headD Pins.idle

/-- The step is over: the next entry of the inputs is the current one. -/
def State.tick (s : State) : State := { s with inputs := s.inputs.tail }

/-- The operations still to be performed. -/
def State.setOps (s : State) (bs : List Byte) : State := { s with ops := bs }

end Sys2Proof.Machine
end

