-- ==== Sys2Proof/Machine/Operands.lean ====
section
/-! DEFINITION. The operand forms: which raw values are valid for a field and the register value each gives
(R101 to R110), and the concrete encoding of a slot of the command port (R188). Each function below answers the
register's value where `valid(r)` holds and none where it does not. -/

namespace Sys2Proof.Machine

/-- R101: an integer 14 to 30. -/
def temperatureOf : Raw → Option Temperature
  | .int z => if h : 14 ≤ z ∧ z ≤ 30 then some ⟨z, h⟩ else none
  | .bool _ => none
  | .sym _ => none
  | .other => none

/-- R102: an integer -5 to 5. -/
def autotempOf : Raw → Option Autotemp
  | .int z => if h : -5 ≤ z ∧ z ≤ 5 then some ⟨z, h⟩ else none
  | .bool _ => none
  | .sym _ => none
  | .other => none

/-- R103: an integer 1 to 5, or one of the three symbols, matched exactly. -/
def fanOf : Raw → Option Fan
  | .int z => if h : 1 ≤ z ∧ z ≤ 5 then some (.speed ⟨z, h⟩) else none
  | .sym s => if s = "auto" then some .auto else if s = "quiet" then some .quiet else if s = "nice" then some .nice
    else none
  | .bool _ => none
  | .other => none

/-- R104, R105, R109: a boolean. -/
def boolOf : Raw → Option Bool
  | .bool b => some b
  | .int _ => none
  | .sym _ => none
  | .other => none

/-- R106: one of the five symbols, matched exactly. -/
def modeOf : Raw → Option Mode
  | .sym s => if s = "auto" then some .auto else if s = "dry" then some .dry else if s = "cold" then some .cold
    else if s = "hot" then some .hot else if s = "fan" then some .fan else none
  | .int _ => none
  | .bool _ => none
  | .other => none

/-- R107, R108: an integer 0 to 12. -/
def timerOf : Raw → Option Timer
  | .int z => if h : 0 ≤ z ∧ z ≤ 12 then some ⟨z, h⟩ else none
  | .bool _ => none
  | .sym _ => none
  | .other => none

/-- R110: whether a raw value is valid for a field. -/
def validFor (f : Field) (r : Raw) : Bool :=
  match f with
  | .temperature => (temperatureOf r).isSome
  | .autotemp => (autotempOf r).isSome
  | .fan => (fanOf r).isSome
  | .swing => (boolOf r).isSome
  | .state => (boolOf r).isSome
  | .mode => (modeOf r).isSome
  | .ontimer => (timerOf r).isSome
  | .offtimer => (timerOf r).isSome
  | .streamer => (boolOf r).isSome

/-- R182: the register value of one slot, the default where it is absent or invalid. -/
def slotValue (valueOf : Raw → Option α) (dflt : α) : Slot → α
  | none => dflt
  | some r => (valueOf r).getD dflt

/-- R188: the string of a symbol code. A code above 6 stands for a string that is none of the seven: a string with a
question mark in front of a free one (log entry 6). -/
def symbolOf (code : Nat) : String :=
  match code with
  | 0 => "auto"
  | 1 => "dry"
  | 2 => "cold"
  | 3 => "hot"
  | 4 => "fan"
  | 5 => "quiet"
  | 6 => "nice"
  | _ => "?" ++ Config.unlistedString code

/-- R188: the slot that the bits (present, tag, val) carry; every bit pattern has a meaning. The width of `val` is
`RAW_INT_W`, an argument (R8). At width 0 there is no bit 0, and tag 1 is read as false (DESIGN CHOICE, log
entry 22). -/
def slotOfBits (present : Bool) (tag : BitVec 2) (val : BitVec w) : Slot :=
  if present then
    some (if tag = 0 then .int val.toInt
      else if tag = 1 then .bool (val.getLsbD 0)
      else if tag = 2 then .sym (symbolOf val.toNat)
      else .other)
  else none

/-- R188: the code under which a string is offered: its own where it is one of the seven, else 7, the first of the
codes that stand for an unlisted string. -/
def symbolCode (s : String) : Nat :=
  if s = "auto" then 0 else if s = "dry" then 1 else if s = "cold" then 2 else if s = "hot" then 3
  else if s = "fan" then 4 else if s = "quiet" then 5 else if s = "nice" then 6 else 7

/-- R188: the integer is representable in `w` bits of two's complement. -/
def fitsIn (w : Nat) (z : Int) : Bool := (BitVec.ofInt w z).toInt == z

/-- R188: the tag under which a caller presents a raw value; an integer that does not fit "must be presented as
tag 3". A symbol or a boolean keeps its tag at every width, also below the 3 bits that its code takes or the 1 bit that
it takes (DESIGN CHOICE, log entry 22). -/
def tagOf (w : Nat) : Raw → BitVec 2
  | .int z => if fitsIn w z then 0 else 3
  | .bool _ => 1
  | .sym _ => 2
  | .other => 3

/-- R188: the `val` bits under which a caller presents a raw value. RAW_INT_W has no least value (R8), and the spec does
not say how a symbol code is presented in fewer than 3 bits or a boolean in none: the model keeps the low `w` bits, so
that "cold", code 2, is read as "auto" at width 1 (DESIGN CHOICE, log entry 22). -/
def valOf (w : Nat) : Raw → BitVec w
  | .int z => BitVec.ofInt w z
  | .bool b => BitVec.ofNat w b.toNat
  | .sym s => BitVec.ofNat w (symbolCode s)
  | .other => 0

/-- R188: the slot that the block reads from the bits under which a caller presents a slot. -/
def slotThroughPort (w : Nat) : Slot → Slot
  | none => slotOfBits false 0 (0 : BitVec w)
  | some r => slotOfBits true (tagOf w r) (valOf w r)

/-- R188: the command that the block reads from the bits under which a caller presents a command. -/
def PartialCommand.throughPort (w : Nat) (c : PartialCommand) : PartialCommand where
  temperature := slotThroughPort w c.temperature
  autotemp := slotThroughPort w c.autotemp
  fan := slotThroughPort w c.fan
  swing := slotThroughPort w c.swing
  state := slotThroughPort w c.state
  mode := slotThroughPort w c.mode
  ontimer := slotThroughPort w c.ontimer
  offtimer := slotThroughPort w c.offtimer
  streamer := slotThroughPort w c.streamer

end Sys2Proof.Machine
end

