-- ==== Sys2Proof/Machine/Flags.lean ====
section
/-! DEFINITION. The block has no condition codes (R32). What it has instead: the substitution report SUBST (R34,
R111), the handshake signals derived from STAGE and K (R33, R187), and the read-only debug taps (R212). -/

namespace Sys2Proof.Machine

/-- R111: SUBST[slot(f)] is set, where SUBST exists. -/
def State.reportSubst (s : State) (f : Field) : State :=
  { s with subst := s.subst.map fun w => w ||| (1#9 <<< f.slot) }

/-- R111: all nine bits are cleared, where SUBST exists. -/
def State.clearSubst (s : State) : State := { s with subst := s.subst.map fun _ => 0 }

/-- R33: BUSY. -/
def State.busy (s : State) : Bool :=
  match s.stage with
  | .idle => false
  | .done => false
  | .normalize => true
  | .build => true
  | .checksum => true
  | .emit => true

/-- R33: DONE. -/
def State.doneFlag (s : State) : Bool := s.stage == .done

/-- R187: out_valid, a word is offered. -/
def State.outValid (s : State) : Bool := s.stage == .emit && decide (s.k < seqLen)

/-- R187: out_mark, the offered word is a mark. -/
def State.outMark (s : State) : Bool := s.k % 2 == 0

/-- R187: out_last, the offered word is the last. -/
def State.outLast (s : State) : Bool := s.k == seqLen - 1

/-- What the debug taps show (R212). -/
structure Taps where
  p : Command
  t : BitVec 32
  fa : List Byte
  fb : List Byte
  deriving DecidableEq, Repr

/-- R212: P, T, FA and FB are observable "after STAGE has passed CHECKSUM and until the next start". R221: they are
observable in an idle block too, where they show the reset values (the two rules read together, log entry 20). While an
operation is still before EMIT the taps show nothing. -/
def State.taps (s : State) : Option Taps :=
  if Config.hasDebugTaps then
    match s.stage with
    | .emit => some ⟨s.p, s.t, s.loadBytes .A 20, s.loadBytes .B 19⟩
    | .done => some ⟨s.p, s.t, s.loadBytes .A 20, s.loadBytes .B 19⟩
    | .idle => some ⟨s.p, s.t, s.loadBytes .A 20, s.loadBytes .B 19⟩
    | .normalize => none
    | .build => none
    | .checksum => none
  else none

end Sys2Proof.Machine
end

