-- ==== Sys2Proof/Machine/Normalizer.lean ====
section
/-! DEFINITION. The Property Normalizer (40_normalizer.md): LOAD.DEFAULTS and the nine NORM operations. -/

namespace Sys2Proof.Machine

/-- What LOAD.DEFAULTS does: all nine registers to their defaults, SUBST cleared (R100, R111). -/
def State.loadDefaults (s : State) : State := (s.setP Command.defaults).clearSubst

/-- R110, the contract of every NORM operation: an absent slot changes nothing; a valid raw value is written; an
invalid one is replaced by the default and reported in SUBST where it exists (R111). -/
def State.normField (s : State) (f : Field) (slot : Slot) (valueOf : Raw → Option α) (dflt : α)
    (write : Command → α → Command) : State :=
  match slot with
  | none => s
  | some r =>
    match valueOf r with
    | some v => s.setP (write s.p v)
    | none => (s.setP (write s.p dflt)).reportSubst f

/-- R101: the slot `temperature` into `P[temperature]`. -/
def State.normTemperature (s : State) : State :=
  s.normField .temperature s.raw.temperature temperatureOf dfltTemperature fun p v => { p with temperature := v }

/-- R102: the slot `autotemp` into `P[autotemp]`. -/
def State.normAutotemp (s : State) : State :=
  s.normField .autotemp s.raw.autotemp autotempOf dfltAutotemp fun p v => { p with autotemp := v }

/-- R103: the slot `fan` into `P[fan]`. -/
def State.normFan (s : State) : State :=
  s.normField .fan s.raw.fan fanOf dfltFan fun p v => { p with fan := v }

/-- R104: the slot `swing` into `P[swing]`. -/
def State.normSwing (s : State) : State :=
  s.normField .swing s.raw.swing boolOf dfltBool fun p v => { p with swing := v }

/-- R105: the slot `state` into `P[state]`. -/
def State.normState (s : State) : State :=
  s.normField .state s.raw.state boolOf dfltBool fun p v => { p with state := v }

/-- R106: the slot `mode` into `P[mode]`. -/
def State.normMode (s : State) : State :=
  s.normField .mode s.raw.mode modeOf dfltMode fun p v => { p with mode := v }

/-- R107: the slot `ontimer` into `P[ontimer]`. -/
def State.normOntimer (s : State) : State :=
  s.normField .ontimer s.raw.ontimer timerOf dfltTimer fun p v => { p with ontimer := v }

/-- R108: the slot `offtimer` into `P[offtimer]`. -/
def State.normOfftimer (s : State) : State :=
  s.normField .offtimer s.raw.offtimer timerOf dfltTimer fun p v => { p with offtimer := v }

/-- R109: the slot `streamer` into `P[streamer]`. -/
def State.normStreamer (s : State) : State :=
  s.normField .streamer s.raw.streamer boolOf dfltBool fun p v => { p with streamer := v }

/-- LOAD.DEFAULTS (R100). -/
def execLoadDefaults (s : State) : Host.Outcome State Fault Refusal := .next s.loadDefaults

/-- NORM.TEMPERATURE (R101). -/
def execNormTemperature (s : State) : Host.Outcome State Fault Refusal := .next s.normTemperature

/-- NORM.AUTOTEMP (R102). -/
def execNormAutotemp (s : State) : Host.Outcome State Fault Refusal := .next s.normAutotemp

/-- NORM.FAN (R103). -/
def execNormFan (s : State) : Host.Outcome State Fault Refusal := .next s.normFan

/-- NORM.SWING (R104). -/
def execNormSwing (s : State) : Host.Outcome State Fault Refusal := .next s.normSwing

/-- NORM.STATE (R105). -/
def execNormState (s : State) : Host.Outcome State Fault Refusal := .next s.normState

/-- NORM.MODE (R106). -/
def execNormMode (s : State) : Host.Outcome State Fault Refusal := .next s.normMode

/-- NORM.ONTIMER (R107). -/
def execNormOntimer (s : State) : Host.Outcome State Fault Refusal := .next s.normOntimer

/-- NORM.OFFTIMER (R108). -/
def execNormOfftimer (s : State) : Host.Outcome State Fault Refusal := .next s.normOfftimer

/-- NORM.STREAMER (R109). -/
def execNormStreamer (s : State) : Host.Outcome State Fault Refusal := .next s.normStreamer

end Sys2Proof.Machine
end

