-- ==== Sys2Proof/Machine/FrameBuilder.lean ====
section
/-! DEFINITION. The Frame Builder (41_frame_builder.md): the functions of the dynamic bytes and of the timer word,
BUILD.A and BUILD.B. -/

namespace Sys2Proof.Machine

/-- One bit as a byte. -/
def bitByte (b : Bool) : Byte := if b then 1 else 0

/-- R131: the modes of the autotemp form. -/
def Mode.isAutoDry : Mode → Bool
  | .auto => true
  | .dry => true
  | .cold => false
  | .hot => false
  | .fan => false

/-- R122: FA byte 8. -/
def niceByte (p : Command) : Byte := if p.fan = .nice then niceBit else 0

/-- R129: FB byte 5, flags and mode. -/
def flagsMode (p : Command) : Byte :=
  bitByte p.state ||| (bitByte (decide (p.ontimer.val > 0)) <<< 1) ||| (bitByte (decide (p.offtimer.val > 0)) <<< 2)
    ||| flagsConstant ||| (p.mode.code.setWidth 8 <<< 4)

/-- R74: the autotemp code. -/
def autotempCode (a : Autotemp) : Byte := BitVec.ofInt 8 (if a.val < 0 then 16 + a.val else a.val)

/-- R130: the autotemp form of FB byte 6. -/
def autotempByte (p : Command) : Byte := (autotempCode p.autotemp <<< 1) ||| autotempForm

/-- R130: the temperature form of FB byte 6. -/
def temperatureByte (p : Command) : Byte := BitVec.ofInt 8 p.temperature.val <<< 1

/-- R130: FB byte 6, in the form that the mode selects. -/
def tempByte (p : Command) : Byte :=
  match p.mode with
  | .auto => autotempByte p
  | .dry => autotempByte p
  | .fan => 0
  | .cold => temperatureByte p
  | .hot => temperatureByte p

/-- R131: FB byte 7. -/
def companionByte (p : Command) : Byte := if p.mode.isAutoDry then autoDryByte else 0

/-- R77, R132: the fan code. -/
def Fan.code : Fan → Byte
  | .speed n => BitVec.ofInt 8 (n.val + 2)
  | .auto => 0b1010
  | .nice => 0b1010
  | .quiet => 0b1011

/-- R132: FB byte 8, fan and swing. -/
def fanSwing (p : Command) : Byte := (p.fan.code <<< 4) ||| (if p.swing then swingNibble else 0)

/-- R133: one half of the timer word: the value times 15 at its shift, or the sentinel at its own. -/
def timerHalf (n : Timer) (shift sentinelShift : Nat) : BitVec 32 :=
  if n.val > 0 then BitVec.ofInt 32 (n.val * timerFactor) <<< shift else timerSentinel <<< sentinelShift

/-- R133: the timer word. -/
def timerWord (p : Command) : BitVec 32 :=
  timerHalf p.ontimer onShift onOffShift ||| timerHalf p.offtimer offShift offOffShift

/-- R135: FB byte 16. -/
def streamerByte (p : Command) : Byte := (if p.streamer then streamerBit else 0) ||| constantFb16

/-- R120: the 19 payload bytes of Frame A. -/
def payloadA (p : Command) : List Byte := frameHeader ++ [1, 0, 0, 0] ++ [niceByte p] ++ List.replicate 10 0

/-- R125: the payload bytes 0 to 8 of Frame B. -/
def payloadBHead (p : Command) : List Byte := frameHeader ++ [0, flagsMode p, tempByte p, companionByte p, fanSwing p]

/-- R125, R135: the payload bytes 13 to 17 of Frame B. -/
def payloadBTail (p : Command) : List Byte := [0, 0, constantFb15, streamerByte p, 0]

/-- R125: the 18 payload bytes of Frame B. -/
def payloadB (p : Command) : List Byte := payloadBHead p ++ wordBytes (timerWord p) ++ payloadBTail p

/-- What BUILD.A does (R120 to R124): the payload, and a zero placeholder at offset 19. -/
def State.buildA (s : State) : State := s.storeBytes .A 0 (payloadA s.p ++ [0])

/-- What BUILD.B does (R125 to R136), T on the way, and a zero placeholder at offset 18. -/
def State.buildB (s : State) : State :=
  let head := s.storeBytes .B 0 (payloadBHead s.p)
  let timed := head.setT (timerWord s.p)
  let word := timed.storeWord .B 9 timed.t
  word.storeBytes .B 13 (payloadBTail s.p ++ [0])

/-- BUILD.A (R120). -/
def execBuildA (s : State) : Host.Outcome State Fault Refusal := .next s.buildA

/-- BUILD.B (R125). -/
def execBuildB (s : State) : Host.Outcome State Fault Refusal := .next s.buildB

end Sys2Proof.Machine
end

