-- ==== Sys2Proof/Machine/Checksum.lean ====
section
/-! DEFINITION. The Checksum Appender (42_checksum.md): CSUM.A and CSUM.B. -/

namespace Sys2Proof.Machine

/-- R150: the 8-bit sum, accumulated from 0 in a byte that discards the carry. -/
def csum (bs : List Byte) : Byte := bs.foldl (· + ·) 0

/-- What CSUM.A does (R151): the sum of offsets 0 to 18 at offset 19. -/
def State.csumA (s : State) : State := s.storeByte .A 19 (csum (s.loadBytes .A 19))

/-- What CSUM.B does (R152): the sum of offsets 0 to 17 at offset 18. -/
def State.csumB (s : State) : State := s.storeByte .B 18 (csum (s.loadBytes .B 18))

/-- CSUM.A (R151). -/
def execCsumA (s : State) : Host.Outcome State Fault Refusal := .next s.csumA

/-- CSUM.B (R152). -/
def execCsumB (s : State) : Host.Outcome State Fault Refusal := .next s.csumB

end Sys2Proof.Machine
end

