-- ==== Sys2Proof/Machine/PulseSequencer.lean ====
section
/-! DEFINITION. The Pulse Sequencer (43_pulse_sequencer.md): the emit operations, SEQUENCE, and the entry that the
index K names (R168). -/

namespace Sys2Proof.Machine

/-- R82: the symbol of one bit. -/
def bitSymbol (b : Bool) : List Duration := if b then symBit1 else symBit0

/-- R83: the 16 entries of a byte, bit 0 first. -/
def byteSymbols (v : Byte) : List Duration := (List.range 8).flatMap fun j => bitSymbol (v.getLsbD j)

/-- R167: `bits(F)`, the entries of the bytes in offset order. -/
def frameSymbols (bs : List Byte) : List Duration := bs.flatMap byteSymbols

/-- What EMIT.BIT does (R164). -/
def State.emitBit (s : State) (b : Bool) : State := (s.emit tMark).emit (if b then tSpace1 else tSpace0)

/-- What EMIT.BYTE does (R165): bit 0 first. -/
def State.emitByte (s : State) (v : Byte) : State := (List.range 8).foldl (fun s j => s.emitBit (v.getLsbD j)) s

/-- What EMIT.FRAME does (R166): offset 0 first. -/
def State.emitFrame (s : State) (f : FrameName) (n : Nat) : State :=
  (List.range n).foldl (fun s i => s.emitByte (s.loadByte f i)) s

/-- What SEQUENCE does (R167). -/
def State.sequence (s : State) : State :=
  let a := ((s.clearSeq.emitAll symLeader).emitAll symMarker).emitFrame .A FrameName.A.length
  ((a.emitAll symMarker).emitFrame .B FrameName.B.length).emitAll symStop

/-- R168: the entry of a frame bit, `m` entries into the frame. -/
def State.frameEntry (s : State) (f : FrameName) (m : Nat) : Duration :=
  if m % 2 = 0 then tMark
  else if (s.loadByte f (m / 16)).getLsbD (m % 16 / 2) then tSpace1 else tSpace0

/-- R168: the entry at index k. -/
def State.entryAt (s : State) (k : Nat) : Duration :=
  if k ≤ 9 then symLeader.getD k 0
  else if k ≤ 13 then symMarker.getD (k - 10) 0
  else if k ≤ 333 then s.frameEntry .A (k - 14)
  else if k ≤ 337 then symMarker.getD (k - 334) 0
  else if k ≤ 641 then s.frameEntry .B (k - 338)
  else symStop.getD (k - 642) 0

/-- R187: the word that is offered, where one is (`State.outValid`). -/
def State.outWord (s : State) : Duration := s.entryAt s.k

/-- EMIT.LEADER (R161). -/
def execEmitLeader (s : State) : Host.Outcome State Fault Refusal := .next (s.emitAll symLeader)

/-- EMIT.MARKER (R162). -/
def execEmitMarker (s : State) : Host.Outcome State Fault Refusal := .next (s.emitAll symMarker)

/-- EMIT.STOP (R163). -/
def execEmitStop (s : State) : Host.Outcome State Fault Refusal := .next (s.emitAll symStop)

/-- EMIT.BIT (R164). -/
def execEmitBit (b : Bool) (s : State) : Host.Outcome State Fault Refusal := .next (s.emitBit b)

/-- EMIT.BYTE (R165). -/
def execEmitByte (v : Byte) (s : State) : Host.Outcome State Fault Refusal := .next (s.emitByte v)

/-- EMIT.FRAME (R166). A length beyond the frame, which no well-formed operation has, reads an offset that does not
exist (log entry 10). -/
def execEmitFrame (f : FrameName) (n : Nat) (s : State) : Host.Outcome State Fault Refusal :=
  if n ≤ f.length then .next (s.emitFrame f n) else .fault (.noSuchOffset f f.length)

/-- SEQUENCE (R167). -/
def execSequence (s : State) : Host.Outcome State Fault Refusal := .next s.sequence

end Sys2Proof.Machine
end

