-- ==== Sys2Proof/Machine/EncodeOperation.lean ====
section
/-! DEFINITION. The ENCODE operation: as the sequence of its stages (R180), and as a function of the nine slots
(R182). -/

namespace Sys2Proof.Machine

/-- R180, stage NORMALIZE: LOAD.DEFAULTS and the nine NORM operations in slot order. -/
def State.normalizeAll (s : State) : State :=
  s.loadDefaults.normTemperature.normAutotemp.normFan.normSwing.normState.normMode.normOntimer.normOfftimer.normStreamer

/-- What ENCODE does (R180): capture, NORMALIZE, BUILD, CHECKSUM, EMIT, DONE. A start while BUSY "has no effect and
is not remembered" (R185; log entry 11). -/
def State.encodeAll (s : State) : State :=
  if s.busy then s
  else
    ((((s.capture s.pins.slots).setStage .normalize).normalizeAll.setStage .build).buildA.buildB.setStage
      .checksum).csumA.csumB.setStage .emit |>.sequence.setStage .done

/-- ENCODE (R180). Its operands are the nine slots at the command port (R185, R186). -/
def execEncode (s : State) : Host.Outcome State Fault Refusal := .next s.encodeAll

/-- R182: `cmd(c)`. -/
def normalizedCommand (c : PartialCommand) : Command where
  temperature := slotValue temperatureOf dfltTemperature c.temperature
  autotemp := slotValue autotempOf dfltAutotemp c.autotemp
  fan := slotValue fanOf dfltFan c.fan
  swing := slotValue boolOf dfltBool c.swing
  state := slotValue boolOf dfltBool c.state
  mode := slotValue modeOf dfltMode c.mode
  ontimer := slotValue timerOf dfltTimer c.ontimer
  offtimer := slotValue timerOf dfltTimer c.offtimer
  streamer := slotValue boolOf dfltBool c.streamer

/-- R182: `frameA(p)`. -/
def frameA (p : Command) : List Byte := payloadA p ++ [csum (payloadA p)]

/-- R182: `frameB(p)`. -/
def frameB (p : Command) : List Byte := payloadB p ++ [csum (payloadB p)]

/-- R182: `sequence(A, B)`. -/
def sequenceOf (a b : List Byte) : List Duration :=
  symLeader ++ symMarker ++ frameSymbols a ++ symMarker ++ frameSymbols b ++ symStop

/-- R182: `encode(c)`. -/
def encodeFunction (c : PartialCommand) : List Duration :=
  sequenceOf (frameA (normalizedCommand c)) (frameB (normalizedCommand c))

end Sys2Proof.Machine
end

