-- ==== Sys2Proof/Machine/FrameABytes.lean ====
section
/-! DEFINITION. The bytes of Frame A one by one: the rows of the table that BUILD.A and CSUM.A are made of
(R61, R121 to R124, R151). Each reads the property registers (the timer bytes read T, the checksum byte the payload) and writes
its own offsets (log entry 9). -/

namespace Sys2Proof.Machine

/-- FA[0] (R121): header byte 0. -/
def execFa0 (s : State) : Host.Outcome State Fault Refusal := .next (s.storeByte .A 0 17)

/-- FA[1] (R121): header byte 1. -/
def execFa1 (s : State) : Host.Outcome State Fault Refusal := .next (s.storeByte .A 1 218)

/-- FA[2] (R121): header byte 2. -/
def execFa2 (s : State) : Host.Outcome State Fault Refusal := .next (s.storeByte .A 2 39)

/-- FA[3] (R121): header byte 3. -/
def execFa3 (s : State) : Host.Outcome State Fault Refusal := .next (s.storeByte .A 3 0)

/-- FA[4] (R121): the constant 1. -/
def execFa4 (s : State) : Host.Outcome State Fault Refusal := .next (s.storeByte .A 4 1)

/-- FA[5..7] (R121): the constants 0. -/
def execFa5to7 (s : State) : Host.Outcome State Fault Refusal := .next (s.storeBytes .A 5 (List.replicate 3 0))

/-- FA[8] (R122): bit 4 says that fan is "nice". -/
def execFa8 (s : State) : Host.Outcome State Fault Refusal := .next (s.storeByte .A 8 (niceByte s.p))

/-- FA[9..18] (R123): zero. -/
def execFa9to18 (s : State) : Host.Outcome State Fault Refusal := .next (s.storeBytes .A 9 (List.replicate 10 0))

/-- FA[19] (R151): the sum of FA[0..18] mod 256. -/
def execFa19 (s : State) : Host.Outcome State Fault Refusal := .next (s.storeByte .A 19 (csum (s.loadBytes .A 19)))

end Sys2Proof.Machine
end

