-- ==== Sys2Proof/Machine/FrameBBytes.lean ====
section
/-! DEFINITION. The bytes of Frame B one by one: the rows of the table that BUILD.B and CSUM.B are made of
(R70, R126 to R136, R152). Each reads the property registers (the timer bytes read T, the checksum byte the payload) and writes
its own offsets (log entry 9). -/

namespace Sys2Proof.Machine

/-- FB[0] (R126): header byte 0. -/
def execFb0 (s : State) : Host.Outcome State Fault Refusal := .next (s.storeByte .B 0 17)

/-- FB[1] (R126): header byte 1. -/
def execFb1 (s : State) : Host.Outcome State Fault Refusal := .next (s.storeByte .B 1 218)

/-- FB[2] (R126): header byte 2. -/
def execFb2 (s : State) : Host.Outcome State Fault Refusal := .next (s.storeByte .B 2 39)

/-- FB[3] (R126): header byte 3. -/
def execFb3 (s : State) : Host.Outcome State Fault Refusal := .next (s.storeByte .B 3 0)

/-- FB[4] (R127): zero. -/
def execFb4 (s : State) : Host.Outcome State Fault Refusal := .next (s.storeByte .B 4 0)

/-- FB[5] (R129): flags and mode. -/
def execFb5 (s : State) : Host.Outcome State Fault Refusal := .next (s.storeByte .B 5 (flagsMode s.p))

/-- FB[6].autodry (R130): the autotemp form, written when the mode is auto or dry; under another mode this form
is not selected and nothing is written. -/
def execFb6Autodry (s : State) : Host.Outcome State Fault Refusal :=
  .next (if s.p.mode = .auto ∨ s.p.mode = .dry then s.storeByte .B 6 (autotempByte s.p) else s)

/-- FB[6].coldhot (R130): the temperature form, written when the mode is cold or hot; under another mode this form
is not selected and nothing is written. -/
def execFb6Coldhot (s : State) : Host.Outcome State Fault Refusal :=
  .next (if s.p.mode = .cold ∨ s.p.mode = .hot then s.storeByte .B 6 (temperatureByte s.p) else s)

/-- FB[6].fan (R130): the zero form, written when the mode is fan; under another mode this form is not selected and
nothing is written. -/
def execFb6Fan (s : State) : Host.Outcome State Fault Refusal :=
  .next (if s.p.mode = .fan then s.storeByte .B 6 0 else s)

/-- FB[7] (R131): 0x80 under auto and dry. -/
def execFb7 (s : State) : Host.Outcome State Fault Refusal := .next (s.storeByte .B 7 (companionByte s.p))

/-- FB[8] (R132): fan and swing. -/
def execFb8 (s : State) : Host.Outcome State Fault Refusal := .next (s.storeByte .B 8 (fanSwing s.p))

/-- FB[9] (R134): T[7:0]. -/
def execFb9 (s : State) : Host.Outcome State Fault Refusal := .next (s.storeByte .B 9 (s.t.extractLsb' 0 8))

/-- FB[10] (R134): T[15:8]. -/
def execFb10 (s : State) : Host.Outcome State Fault Refusal := .next (s.storeByte .B 10 (s.t.extractLsb' 8 8))

/-- FB[11] (R134): T[23:16]. -/
def execFb11 (s : State) : Host.Outcome State Fault Refusal := .next (s.storeByte .B 11 (s.t.extractLsb' 16 8))

/-- FB[12] (R134): T[31:24]. -/
def execFb12 (s : State) : Host.Outcome State Fault Refusal := .next (s.storeByte .B 12 (s.t.extractLsb' 24 8))

/-- FB[13..14] (R135): zero. -/
def execFb13to14 (s : State) : Host.Outcome State Fault Refusal := .next (s.storeBytes .B 13 (List.replicate 2 0))

/-- FB[15] (R135): the constant 0xC1. -/
def execFb15 (s : State) : Host.Outcome State Fault Refusal := .next (s.storeByte .B 15 constantFb15)

/-- FB[16] (R135): bit 4 is the streamer flag. -/
def execFb16 (s : State) : Host.Outcome State Fault Refusal := .next (s.storeByte .B 16 (streamerByte s.p))

/-- FB[17] (R135): zero. -/
def execFb17 (s : State) : Host.Outcome State Fault Refusal := .next (s.storeByte .B 17 0)

/-- FB[18] (R152): the sum of FB[0..17] mod 256. -/
def execFb18 (s : State) : Host.Outcome State Fault Refusal := .next (s.storeByte .B 18 (csum (s.loadBytes .B 18)))

end Sys2Proof.Machine
end

