-- ==== Sys2Proof/Machine/PulseSymbols.lean ====
section
/-! DEFINITION. The pulse symbols of the table (R82, R160): each row is the emission of its symbol. -/

namespace Sys2Proof.Machine

/-- BIT0 (R82): a logical 0. -/
def execBit0 (s : State) : Host.Outcome State Fault Refusal := .next (s.emitAll symBit0)

/-- BIT1 (R82): a logical 1. -/
def execBit1 (s : State) : Host.Outcome State Fault Refusal := .next (s.emitAll symBit1)

/-- LEADER (R82): five mark/space cycles. -/
def execLeader (s : State) : Host.Outcome State Fault Refusal := .next (s.emitAll symLeader)

/-- MARKER (R82): before Frame A and before Frame B. -/
def execMarker (s : State) : Host.Outcome State Fault Refusal := .next (s.emitAll symMarker)

/-- STOP (R82): the trailing stop. -/
def execStop (s : State) : Host.Outcome State Fault Refusal := .next (s.emitAll symStop)

end Sys2Proof.Machine
end

