-- ==== Sys2Proof/Machine/Dispatch.lean ====
section
/-! DEFINITION. The dispatch: one arm per operation, each one call of its meaning. -/

namespace Sys2Proof.Machine

def exec (i : Instr) (s : State) : Host.Outcome State Fault Refusal :=
  match i with
  | .encode => Sys2Proof.Machine.execEncode s
  | .loadDefaults => Sys2Proof.Machine.execLoadDefaults s
  | .normTemperature => Sys2Proof.Machine.execNormTemperature s
  | .normAutotemp => Sys2Proof.Machine.execNormAutotemp s
  | .normFan => Sys2Proof.Machine.execNormFan s
  | .normSwing => Sys2Proof.Machine.execNormSwing s
  | .normState => Sys2Proof.Machine.execNormState s
  | .normMode => Sys2Proof.Machine.execNormMode s
  | .normOntimer => Sys2Proof.Machine.execNormOntimer s
  | .normOfftimer => Sys2Proof.Machine.execNormOfftimer s
  | .normStreamer => Sys2Proof.Machine.execNormStreamer s
  | .buildA => Sys2Proof.Machine.execBuildA s
  | .buildB => Sys2Proof.Machine.execBuildB s
  | .csumA => Sys2Proof.Machine.execCsumA s
  | .csumB => Sys2Proof.Machine.execCsumB s
  | .emitLeader => Sys2Proof.Machine.execEmitLeader s
  | .emitMarker => Sys2Proof.Machine.execEmitMarker s
  | .emitStop => Sys2Proof.Machine.execEmitStop s
  | .emitBit b => Sys2Proof.Machine.execEmitBit b s
  | .emitByte v => Sys2Proof.Machine.execEmitByte v s
  | .emitFrame f n => Sys2Proof.Machine.execEmitFrame f n s
  | .sequence => Sys2Proof.Machine.execSequence s
  | .fa0 => Sys2Proof.Machine.execFa0 s
  | .fa1 => Sys2Proof.Machine.execFa1 s
  | .fa2 => Sys2Proof.Machine.execFa2 s
  | .fa3 => Sys2Proof.Machine.execFa3 s
  | .fa4 => Sys2Proof.Machine.execFa4 s
  | .fa5to7 => Sys2Proof.Machine.execFa5to7 s
  | .fa8 => Sys2Proof.Machine.execFa8 s
  | .fa9to18 => Sys2Proof.Machine.execFa9to18 s
  | .fa19 => Sys2Proof.Machine.execFa19 s
  | .fb0 => Sys2Proof.Machine.execFb0 s
  | .fb1 => Sys2Proof.Machine.execFb1 s
  | .fb2 => Sys2Proof.Machine.execFb2 s
  | .fb3 => Sys2Proof.Machine.execFb3 s
  | .fb4 => Sys2Proof.Machine.execFb4 s
  | .fb5 => Sys2Proof.Machine.execFb5 s
  | .fb6Autodry => Sys2Proof.Machine.execFb6Autodry s
  | .fb6Coldhot => Sys2Proof.Machine.execFb6Coldhot s
  | .fb6Fan => Sys2Proof.Machine.execFb6Fan s
  | .fb7 => Sys2Proof.Machine.execFb7 s
  | .fb8 => Sys2Proof.Machine.execFb8 s
  | .fb9 => Sys2Proof.Machine.execFb9 s
  | .fb10 => Sys2Proof.Machine.execFb10 s
  | .fb11 => Sys2Proof.Machine.execFb11 s
  | .fb12 => Sys2Proof.Machine.execFb12 s
  | .fb13to14 => Sys2Proof.Machine.execFb13to14 s
  | .fb15 => Sys2Proof.Machine.execFb15 s
  | .fb16 => Sys2Proof.Machine.execFb16 s
  | .fb17 => Sys2Proof.Machine.execFb17 s
  | .fb18 => Sys2Proof.Machine.execFb18 s
  | .bit0 => Sys2Proof.Machine.execBit0 s
  | .bit1 => Sys2Proof.Machine.execBit1 s
  | .leader => Sys2Proof.Machine.execLeader s
  | .marker => Sys2Proof.Machine.execMarker s
  | .stop => Sys2Proof.Machine.execStop s

end Sys2Proof.Machine
end

