-- ==== Sys2Proof/Machine/Pipeline.lean ====
section
/-! DEFINITION. The stages of an operation, step by step (R180), and the ports (R181, R185, R187, R220). The
operations of a stage stand in `ops` as operation words; when none is left, the stage advances (log entry 3). -/

namespace Sys2Proof.Machine

/-- R180: the operations of stage NORMALIZE. -/
def normalizeProgram : List Instr :=
  [.loadDefaults, .normTemperature, .normAutotemp, .normFan, .normSwing, .normState, .normMode, .normOntimer,
   .normOfftimer, .normStreamer]

/-- R180: the operations of stage BUILD. -/
def buildProgram : List Instr := [.buildA, .buildB]

/-- R180: the operations of stage CHECKSUM. -/
def checksumProgram : List Instr := [.csumA, .csumB]

/-- The words of a list of operations. -/
def programBytes (is : List Instr) : List Byte := is.flatMap encode

/-- R181, R185: an accepted start captures the slots at that instant and enters NORMALIZE. -/
def State.startAccepted (s : State) (c : PartialCommand) : State :=
  ((s.capture c).setStage .normalize).setOps (programBytes normalizeProgram)

/-- R187: the offered word is taken: K advances by one; "STAGE becomes DONE when the word with `out_last` has been
taken". -/
def State.wordTaken (s : State) : State :=
  let t := s.emit s.outWord
  if seqLen ≤ t.k then t.setStage .done else t

/-- What a step does when no operation of the stage is left. IDLE and DONE wait for a start (R185, R223), EMIT for
the consumer (R184, R187); the other stages advance (R180). -/
def State.advance (s : State) : State :=
  match s.stage with
  | .idle => if s.pins.start then s.startAccepted s.pins.slots else s
  | .done => if s.pins.start then s.startAccepted s.pins.slots else s
  | .normalize => (s.setStage .build).setOps (programBytes buildProgram)
  | .build => (s.setStage .checksum).setOps (programBytes checksumProgram)
  | .checksum => s.clearSeq.setStage .emit
  | .emit => if s.pins.outReady then s.wordTaken else s

/-- R220, R222: reset puts every register into its reset value and ends an operation at once. Whether SUBST exists
does not change, and the inputs are not the block's. -/
def State.applyReset (s : State) : State :=
  { State.reset with subst := s.subst.map fun _ => 0, inputs := s.inputs }

/-- A step that performed an operation is over where the operation gave a next state. -/
def tickOutcome : Host.Outcome State Fault Refusal → Host.Outcome State Fault Refusal
  | .next s => .next s.tick
  | .fault e => .fault e
  | .refused r => .refused r

/-- What a step does when operations are left: the first is decoded, taken off and performed. -/
def State.perform (s : State) : Host.Outcome State Fault Refusal :=
  match decode s.ops with
  | .ok (i, rest) => tickOutcome (exec i (s.setOps rest))
  | .error e => .refused (.undecodable e)

/-- One step: reset first (R220), then an operation of the stage, then an advance of the stage. -/
def State.stepOnce (s : State) : Host.Outcome State Fault Refusal :=
  if s.pins.reset then .next s.applyReset.tick
  else
    match s.ops with
    | [] => .next s.advance.tick
    | _ :: _ => s.perform

/-- The inputs with reset not asserted at the coming step. -/
def withoutReset : List Pins → List Pins
  | [] => []
  | q :: qs => { q with reset := false } :: qs

end Sys2Proof.Machine
end

