-- ==== Sys2Proof/Machine/Step.lean ====
section
/-! DEFINITION. One step of the block, and how the host places an operation. -/

namespace Sys2Proof.Machine

/-- One step (R180, R31; log entries 3, 4 and 14). -/
def step (s : State) : Host.Outcome State Fault Refusal := s.stepOnce

/-- The state with an operation word, numbered as the table numbers it, as the next operation to be performed; the
coming step does not see a reset. -/
def State.withFetchWord (s : State) (nbits w : Nat) : State :=
  { s with ops := tableBytes nbits w ++ s.ops, inputs := withoutReset s.inputs }

end Sys2Proof.Machine
end

