-- ==== Sys2Proof/Machine/Presenter.lean ====
section
/-! DEFINITION. Presenting a command by field names (R186). This is the caller's software, outside the block (R5); it
is modelled beside the machine because R186, R214 and D4 state it. -/

namespace Sys2Proof.Machine

/-- The field that an exact lower-case name selects; none for every other name. -/
def fieldNamed (name : String) : Option Field :=
  if name = "temperature" then some .temperature
  else if name = "autotemp" then some .autotemp
  else if name = "fan" then some .fan
  else if name = "swing" then some .swing
  else if name = "state" then some .state
  else if name = "mode" then some .mode
  else if name = "ontimer" then some .ontimer
  else if name = "offtimer" then some .offtimer
  else if name = "streamer" then some .streamer
  else none

/-- The name as the presenter compares it: folded to lower case where `CASEFOLD_NAMES` is true (U6). -/
def foldedName (fold : Bool) (name : String) : String :=
  if fold then String.ofList (name.toList.map Char.toLower) else name

/-- R186: the items fill the slots that their names select; a name that selects none is dropped; two items for one
slot are refused. -/
def presentInto (fold : Bool) (c : PartialCommand) : List (String × Raw) → Except Refusal PartialCommand
  | [] => .ok c
  | (name, r) :: rest =>
    match fieldNamed (foldedName fold name) with
    | none => presentInto fold c rest
    | some f => if (c.get f).isSome then .error (.duplicateField f) else presentInto fold (c.set f (some r)) rest

/-- R186: a mapping from field names to values as the nine slots. -/
def presentCommand (fold : Bool) (items : List (String × Raw)) : Except Refusal PartialCommand :=
  presentInto fold PartialCommand.empty items

end Sys2Proof.Machine
end

