-- ==== Sys2Proof/Safety.lean ====
section
/-! DEFINITION. What the statements call a good state: the structural invariant that every operation keeps, the
invariant of the pipeline (what every stage has established, R23, R50, R51, R180), and a step that goes on. -/

namespace Sys2Proof.Machine

/-- R22, R201: the domain of a field, as the spec's table words it. -/
def inDomain : Field → Raw → Prop
  | .temperature, r => ∃ z, r = .int z ∧ 14 ≤ z ∧ z ≤ 30
  | .autotemp, r => ∃ z, r = .int z ∧ -5 ≤ z ∧ z ≤ 5
  | .fan, r => (∃ z, r = .int z ∧ 1 ≤ z ∧ z ≤ 5) ∨ r = .sym "auto" ∨ r = .sym "quiet" ∨ r = .sym "nice"
  | .swing, r => ∃ b, r = .bool b
  | .state, r => ∃ b, r = .bool b
  | .mode, r => r = .sym "auto" ∨ r = .sym "dry" ∨ r = .sym "cold" ∨ r = .sym "hot" ∨ r = .sym "fan"
  | .ontimer, r => ∃ z, r = .int z ∧ 0 ≤ z ∧ z ≤ 12
  | .offtimer, r => ∃ z, r = .int z ∧ 0 ≤ z ∧ z ≤ 12
  | .streamer, r => ∃ b, r = .bool b

/-- The structural invariant: FA and FB in the canonical form of 20 and of 19 bytes (R40), K the number of entries
emitted, and never more than 644 (R31). -/
def State.Inv (s : State) : Prop :=
  Memory.wf 20 s.fa = true ∧ Memory.wf 19 s.fb = true ∧ s.k = s.seq.length ∧ s.k ≤ 644

/-- The buffer holds these bytes from offset 0 on. -/
def Memory.holds (m : Memory) (bs : List Byte) : Prop := ∀ i, i < bs.length → Memory.get m i = bs.getD i 0

/-- The register values after LOAD.DEFAULTS and the NORM operations of the slots below `n` (R180). -/
def normalizedUpTo (n : Nat) (c : PartialCommand) : Command where
  temperature := if 0 < n then slotValue temperatureOf dfltTemperature c.temperature else dfltTemperature
  autotemp := if 1 < n then slotValue autotempOf dfltAutotemp c.autotemp else dfltAutotemp
  fan := if 2 < n then slotValue fanOf dfltFan c.fan else dfltFan
  swing := if 3 < n then slotValue boolOf dfltBool c.swing else dfltBool
  state := if 4 < n then slotValue boolOf dfltBool c.state else dfltBool
  mode := if 5 < n then slotValue modeOf dfltMode c.mode else dfltMode
  ontimer := if 6 < n then slotValue timerOf dfltTimer c.ontimer else dfltTimer
  offtimer := if 7 < n then slotValue timerOf dfltTimer c.offtimer else dfltTimer
  streamer := if 8 < n then slotValue boolOf dfltBool c.streamer else dfltBool

/-- What stage NORMALIZE has established when `j` of its ten operations are done. -/
def State.NormalizeStage (s : State) : Prop :=
  ∃ j, j ≤ 10 ∧ s.ops = programBytes (normalizeProgram.drop j) ∧ (1 ≤ j → s.p = normalizedUpTo (j - 1) s.raw)

/-- What stage BUILD has established when `j` of its two operations are done. -/
def State.BuildStage (s : State) : Prop :=
  s.p = normalizedCommand s.raw ∧
  ∃ j, j ≤ 2 ∧ s.ops = programBytes (buildProgram.drop j) ∧
    (1 ≤ j → Memory.holds s.fa (payloadA s.p ++ [0])) ∧
    (2 ≤ j → Memory.holds s.fb (payloadB s.p ++ [0]) ∧ s.t = timerWord s.p)

/-- What stage CHECKSUM has established when `j` of its two operations are done. -/
def State.ChecksumStage (s : State) : Prop :=
  s.p = normalizedCommand s.raw ∧ s.t = timerWord s.p ∧
  ∃ j, j ≤ 2 ∧ s.ops = programBytes (checksumProgram.drop j) ∧
    Memory.holds s.fa (if 1 ≤ j then frameA s.p else payloadA s.p ++ [0]) ∧
    Memory.holds s.fb (if 2 ≤ j then frameB s.p else payloadB s.p ++ [0])

/-- What holds from the end of CHECKSUM to the next start: the frames are those of the normalized command (R23, R51,
R154), and no operation is left. -/
def State.FramesReady (s : State) : Prop :=
  s.p = normalizedCommand s.raw ∧ s.t = timerWord s.p ∧ s.ops = [] ∧
  Memory.holds s.fa (frameA s.p) ∧ Memory.holds s.fb (frameB s.p)

/-- The invariant of the pipeline, stage by stage. In EMIT the words handed over are the first K of the sequence; in
DONE they are the whole sequence of the captured command (R182). -/
def State.PipelineInv (s : State) : Prop :=
  match s.stage with
  | .idle => s.ops = []
  | .normalize => s.NormalizeStage
  | .build => s.BuildStage
  | .checksum => s.ChecksumStage
  | .emit => s.FramesReady ∧ s.k < 644 ∧ s.seq = (encodeFunction s.raw).take s.k
  | .done => s.FramesReady ∧ s.k = 644 ∧ s.seq = encodeFunction s.raw

/-- A safe state: the block goes on (R200). -/
def State.safe (s : State) : Prop := ∃ t, step s = .next t

/-- R31: the order of the stages; a start leads from IDLE and from DONE to NORMALIZE. -/
def Stage.succ : Stage → Stage
  | .idle => .normalize
  | .normalize => .build
  | .build => .checksum
  | .checksum => .emit
  | .emit => .done
  | .done => .normalize

/-- The values of the reset table (R38), of every register of R20. -/
def State.AtReset (s : State) : Prop :=
  s.stage = .idle ∧ s.k = 0 ∧ (∀ f, s.raw.get f = none) ∧
  s.p.temperature.val = 25 ∧ s.p.autotemp.val = 0 ∧ s.p.fan = .auto ∧ s.p.swing = false ∧ s.p.state = false ∧
  s.p.mode = .auto ∧ s.p.ontimer.val = 0 ∧ s.p.offtimer.val = 0 ∧ s.p.streamer = false ∧
  s.t = 0 ∧ (∀ i, i < 20 → s.loadByte .A i = 0) ∧ (∀ i, i < 19 → s.loadByte .B i = 0) ∧
  (∀ w, s.subst = some w → w = 0) ∧ s.seq = [] ∧ s.outValid = false

/-- How many steps are left of the operation in progress when the consumer takes every word (R184, R233). -/
def State.remaining (s : State) : Nat :=
  match s.stage with
  | .idle => 0
  | .normalize => s.ops.length / 2 + 651
  | .build => s.ops.length / 2 + 648
  | .checksum => s.ops.length / 2 + 645
  | .emit => 644 - s.k
  | .done => 0

/-- The operations of a list, performed one after the other. -/
def performAll : List Instr → State → Host.Outcome State Fault Refusal
  | [], s => .next s
  | i :: is, s =>
    match exec i s with
    | .next t => performAll is t
    | .fault e => .fault e
    | .refused r => .refused r

/-! The dynamic bytes of the frames in plain arithmetic, as the bit pictures of 30_encoding.md give them. They are the
statements' own wording, independent of the functions that BUILD.A and BUILD.B call. -/

/-- R72: the mode code. -/
def wireMode : Mode → Nat
  | .auto => 0
  | .dry => 2
  | .cold => 3
  | .hot => 4
  | .fan => 6

/-- R71: FB[5] as a sum of its fields. -/
def wireFlags (p : Command) : Nat :=
  (if p.state then 1 else 0) + (if 0 < p.ontimer.val then 2 else 0) + (if 0 < p.offtimer.val then 4 else 0) + 8
    + 16 * wireMode p.mode

/-- R73, R74: FB[6]; "the 4-bit two's-complement representation of autotemp, that is `autotemp mod 16`". -/
def wireTemp (p : Command) : Nat :=
  match p.mode with
  | .auto => 192 + 2 * (p.autotemp.val % 16).toNat
  | .dry => 192 + 2 * (p.autotemp.val % 16).toNat
  | .cold => 2 * p.temperature.val.toNat
  | .hot => 2 * p.temperature.val.toNat
  | .fan => 0

/-- R75: FB[7]. -/
def wireCompanion (p : Command) : Nat :=
  match p.mode with
  | .auto => 128
  | .dry => 128
  | .cold => 0
  | .hot => 0
  | .fan => 0

/-- R77: the fan code. -/
def wireFan : Fan → Nat
  | .speed n => n.val.toNat + 2
  | .auto => 10
  | .nice => 10
  | .quiet => 11

/-- R76: FB[8]. -/
def wireFanSwing (p : Command) : Nat := 16 * wireFan p.fan + (if p.swing then 15 else 0)

/-- R78: T. -/
def wireTimer (p : Command) : Nat :=
  (if 0 < p.ontimer.val then p.ontimer.val.toNat * 15 * 2 ^ 10 else 3 * 2 ^ 17)
    + (if 0 < p.offtimer.val then p.offtimer.val.toNat * 15 * 2 ^ 22 else 3 * 2 ^ 29)

/-- R80: FB[16]. -/
def wireStreamer (p : Command) : Nat := if p.streamer then 144 else 128

/-- R61: Frame A with a zero in the place of its checksum. -/
def wireFrameA (p : Command) : List Nat :=
  [17, 218, 39, 0, 1, 0, 0, 0, if p.fan = .nice then 16 else 0, 0, 0, 0, 0, 0, 0, 0, 0, 0, 0, 0]

/-- R70: Frame B with a zero in the place of its checksum. -/
def wireFrameB (p : Command) : List Nat :=
  [17, 218, 39, 0, 0, wireFlags p, wireTemp p, wireCompanion p, wireFanSwing p,
   wireTimer p % 256, wireTimer p / 2 ^ 8 % 256, wireTimer p / 2 ^ 16 % 256, wireTimer p / 2 ^ 24 % 256,
   0, 0, 193, wireStreamer p, 0, 0]

/-- R151, R152: the sum of the first `n` bytes of a frame mod 256. -/
def State.payloadSum (s : State) (f : FrameName) (n : Nat) : Nat :=
  ((List.range n).map fun i => (s.loadByte f i).toNat).sum % 256

/-- The number of 1 bits in the two frames, N1 of R173. -/
def State.onesInFrames (s : State) : Nat :=
  ((List.range 20).map fun i => onesOf (s.loadByte .A i)).sum + ((List.range 19).map fun i => onesOf (s.loadByte .B i)).sum

end Sys2Proof.Machine
end

