-- ==== Sys2Proof/Certificates/Slice0/Obligations.lean ====
section
/-! DEFINITION. The statements about the block, for the provers. Each docstring names the rule it formalises. `exec` is
the meaning of one operation, `step` one step of the block; `State.loadByte` is the read of one byte of a frame. -/

open Sys2Proof Sys2Proof.Machine

/-! ### Reset, start and the ports -/

/-- R38: every register of the block holds the value of the reset table in the reset state. -/
def Obligations.ResetStateHoldsTheTableValues : Prop := State.reset.AtReset

/-- R220: from every state, asserting reset puts every register into the value of the reset table; no word is offered
after it. -/
def Obligations.ResetInputReachesTheTableValues : Prop :=
  ∀ s : State, s.pins.reset = true → ∃ t, step s = .next t ∧ t.AtReset ∧ t.outValid = false

/-- R181: an accepted start copies the nine slots into RAW at that instant and enters NORMALIZE, and no step of the
operation in progress changes RAW, whatever the caller presents. -/
def Obligations.StartCapturesTheSlots : Prop :=
  (∀ s : State, s.pins.reset = false → s.ops = [] → (s.stage = .idle ∨ s.stage = .done) → s.pins.start = true →
    ∃ t, step s = .next t ∧ t.raw = s.pins.slots ∧ t.stage = .normalize ∧
      t.p = s.p ∧ t.t = s.t ∧ t.fa = s.fa ∧ t.fb = s.fb ∧ t.seq = s.seq ∧ t.k = s.k ∧ t.subst = s.subst) ∧
  (∀ s t : State, s.busy = true → s.pins.reset = false → step s = .next t → t.raw = s.raw)

/-- R185: a start is accepted in IDLE and in DONE, and without one the waiting block keeps every register (R223); while
BUSY a start has no effect and is not remembered: the step is the same whatever start and slots are presented, and the
operation ENCODE leaves the state as it is. -/
def Obligations.StartWhileBusyHasNoEffect : Prop :=
  (∀ s : State, s.pins.reset = false → s.ops = [] → (s.stage = .idle ∨ s.stage = .done) →
    ∃ t, step s = .next t ∧ (t.stage = .normalize ↔ s.pins.start = true) ∧
      (s.pins.start = false → t = { s with inputs := t.inputs })) ∧
  (∀ (s : State) (q r : Pins) (qs : List Pins), s.busy = true → q.reset = r.reset → q.outReady = r.outReady →
    step { s with inputs := q :: qs } = step { s with inputs := r :: qs }) ∧
  (∀ s : State, s.busy = true → exec .encode s = .next s)

/-- R187: in EMIT the word SEQ[k] is offered with out_mark for an even k and out_last for k = 643; it is taken when the
consumer is ready, K advances by one, and STAGE becomes DONE when the last word has been taken; until it is taken it
stays as it is. Nothing else changes. -/
def Obligations.OutputWordsAreOfferedUntilTaken : Prop :=
  ∀ s : State, s.pins.reset = false → s.ops = [] → s.stage = .emit → s.k < 644 →
    s.outValid = true ∧ (s.outMark = true ↔ s.k % 2 = 0) ∧ (s.outLast = true ↔ s.k = 643) ∧
    ∃ t, step s = .next t ∧
      (s.pins.outReady = true → t.seq = s.seq ++ [s.outWord] ∧ t.k = s.k + 1 ∧
        t.stage = if s.k = 643 then .done else .emit) ∧
      (s.pins.outReady = false → t.seq = s.seq ∧ t.k = s.k ∧ t.stage = .emit ∧ t.outWord = s.outWord) ∧
      t.raw = s.raw ∧ t.p = s.p ∧ t.t = s.t ∧ t.fa = s.fa ∧ t.fb = s.fb ∧ t.subst = s.subst

/-- The step and the decoder. THE MODEL'S OWN CHOICE throughout: that the operations of a stage stand as words in `ops`
is log entry 3 (the words themselves are log entry 1), and that a step uses up one entry of the inputs is log entry 4.
When the operation words left of the stage decode to a well-formed operation, the step performs it on the state with
that word taken off, and one entry of the inputs is used up. -/
def Obligations.StepPerformsTheDecodedOperation : Prop :=
  ∀ (s : State) (i : Instr) (rest : List Byte), s.pins.reset = false → decode s.ops = .ok (i, rest) → i.wf = true →
    ∃ t, exec i { s with ops := rest } = .next t ∧ step s = .next { t with inputs := t.inputs.tail }

/-- R31, over the states of the pipeline: STAGE advances only in the order IDLE, NORMALIZE, BUILD, CHECKSUM, EMIT, DONE
(a start leads from DONE to NORMALIZE), and in EMIT K grows by exactly one per emitted entry, the entry that it names,
and never passes 644. -/
def Obligations.StagesAdvanceInOrder : Prop :=
  ∀ s t : State, s.PipelineInv → s.pins.reset = false → step s = .next t →
    (t.stage = s.stage ∨ t.stage = s.stage.succ) ∧
    (s.stage = .emit →
      (t.k = s.k ∧ t.seq = s.seq) ∨ (t.k = s.k + 1 ∧ t.k ≤ 644 ∧ t.seq = s.seq ++ [s.entryAt s.k]))

/-! ### Words -/

/-- Decode and encode agree, for every operation with every operand. The words are the model's own (log entry 1): the
statement says that they drop no operand. -/
def Obligations.DecodeInvertsEncode : Prop :=
  ∀ (i : Instr) (rest : List Byte), i.wf = true → decode (encode i ++ rest) = .ok (i, rest)

/-- Whatever the decoder reads is a well-formed operation, from exactly two bytes, and a row number other than 0 is the
number of its row (log entries 1 and 2). -/
def Obligations.DecodedOperationsAreWellFormed : Prop :=
  ∀ (bs : List Byte) (i : Instr) (rest : List Byte), decode bs = .ok (i, rest) →
    i.wf = true ∧ ∃ v r : Byte, bs = v :: r :: rest ∧ (r.toNat = 0 ∨ r.toNat = rowNumber i)

/-- Words written out from the table: the slot number of a NORM operation, the constant bits of a frame byte, the
operands of the emissions (the row numbers are the model's own, log entry 1). -/
def Obligations.WrittenWordsDecode : Prop :=
  decode [0x05, 0x08] = .ok (.normMode, []) ∧ decode [0x11, 0x17] = .ok (.fa0, []) ∧
  decode [0xC0, 0x26] = .ok (.fb6Autodry, []) ∧ decode [0x5A, 0x14] = .ok (.emitByte 0x5A, []) ∧
  decode [0x33, 0x15] = .ok (.emitFrame .B 19, []) ∧ decode [0x00, 0x38] = .ok (.stop, [])

/-- R188: the table of the slot encoding, every tag (0 Int in two's complement, 1 Bool by bit 0, 2 Sym by its code, 3
Other) and every symbol code (0 to 6 the seven strings, any other code none of them); and, with RAW_INT_W at least 6, a
command presented through the encoding normalizes to the same command, and the same slots are valid. -/
def Obligations.SlotEncodingKeepsTheCommand : Prop :=
  (∀ (w : Nat) (val : BitVec w),
    (∀ tag, slotOfBits false tag val = none) ∧
    slotOfBits true 0 val = some (.int val.toInt) ∧
    slotOfBits true 1 val = some (.bool (val.getLsbD 0)) ∧
    slotOfBits true 2 val = some (.sym (symbolOf val.toNat)) ∧
    slotOfBits true 3 val = some .other) ∧
  (∀ x ∈ [(0, "auto"), (1, "dry"), (2, "cold"), (3, "hot"), (4, "fan"), (5, "quiet"), (6, "nice")],
    symbolOf x.1 = x.2) ∧
  (∀ n, 6 < n → symbolOf n ∉ ["auto", "dry", "cold", "hot", "fan", "quiet", "nice"]) ∧
  (∀ (w : Nat) (c : PartialCommand), 6 ≤ w →
    normalizedCommand (c.throughPort w) = normalizedCommand c ∧
    ∀ f, ((c.throughPort w).get f).map (validFor f) = (c.get f).map (validFor f))

/-- R186 and R214: the nine exact lower-case names select their slots, every other string selects none, and without
folding a name is compared as it stands. From the empty command on, an item whose name selects no slot is dropped, one
whose name selects an unfilled slot fills it, and a second item for one slot is refused, by the refusal that R214 names
at the boundary. -/
def Obligations.PresenterFillsSlotsByName : Prop :=
  (∀ x ∈ [("temperature", Field.temperature), ("autotemp", .autotemp), ("fan", .fan), ("swing", .swing),
      ("state", .state), ("mode", .mode), ("ontimer", .ontimer), ("offtimer", .offtimer), ("streamer", .streamer)],
    fieldNamed x.1 = some x.2) ∧
  (∀ name, name ∉ ["temperature", "autotemp", "fan", "swing", "state", "mode", "ontimer", "offtimer", "streamer"] →
    fieldNamed name = none) ∧
  (∀ name, foldedName false name = name) ∧
  (∀ fold items, presentCommand fold items = presentInto fold PartialCommand.empty items) ∧
  (∀ (fold : Bool) (c : PartialCommand), presentInto fold c [] = .ok c) ∧
  ∀ (fold : Bool) (c : PartialCommand) (name : String) (r : Raw) (rest : List (String × Raw)),
    (fieldNamed (foldedName fold name) = none → presentInto fold c ((name, r) :: rest) = presentInto fold c rest) ∧
    (∀ f x, fieldNamed (foldedName fold name) = some f → c.get f = some x →
      presentInto fold c ((name, r) :: rest) = .error (.duplicateField f)) ∧
    (∀ f, fieldNamed (foldedName fold name) = some f → c.get f = none →
      presentInto fold c ((name, r) :: rest) = presentInto fold (c.set f (some r)) rest ∧
      (c.set f (some r)).get f = some r ∧ ∀ g, g ≠ f → (c.set f (some r)).get g = c.get g)

/-! ### The normalizer -/

/-- R100: LOAD.DEFAULTS writes the nine defaults and clears SUBST where it exists; nothing else changes. -/
def Obligations.LoadDefaultsWritesTheDefaults : Prop :=
  ∀ s : State, ∃ t, exec .loadDefaults s = .next t ∧
    t.p.temperature.val = 25 ∧ t.p.autotemp.val = 0 ∧ t.p.fan = .auto ∧ t.p.swing = false ∧ t.p.state = false ∧
    t.p.mode = .auto ∧ t.p.ontimer.val = 0 ∧ t.p.offtimer.val = 0 ∧ t.p.streamer = false ∧
    t.subst = s.subst.map (fun _ => 0) ∧ t = { s with p := t.p, subst := t.subst }

/-- R101: NORM.TEMPERATURE. An absent slot changes nothing; an integer 14 to 30 is written; every other raw value gives
25 and sets SUBST[0] where it exists. Only P[temperature] and SUBST can change. -/
def Obligations.NormTemperatureWritesValueOrDefault : Prop :=
  ∀ s : State, ∃ t, exec .normTemperature s = .next t ∧
    t = { s with p := { s.p with temperature := t.p.temperature }, subst := t.subst } ∧
    (s.raw.temperature = none → t = s) ∧
    (∀ z, s.raw.temperature = some (.int z) → 14 ≤ z → z ≤ 30 → t.p.temperature.val = z ∧ t.subst = s.subst) ∧
    (∀ r, s.raw.temperature = some r → (∀ z, r = .int z → z < 14 ∨ 30 < z) →
      t.p.temperature.val = 25 ∧ t.subst = s.subst.map (· ||| 0b000000001))

/-- R102: NORM.AUTOTEMP. An integer -5 to 5 is written; every other present raw value gives 0 and sets SUBST[1] where it
exists. Only P[autotemp] and SUBST can change. -/
def Obligations.NormAutotempWritesValueOrDefault : Prop :=
  ∀ s : State, ∃ t, exec .normAutotemp s = .next t ∧
    t = { s with p := { s.p with autotemp := t.p.autotemp }, subst := t.subst } ∧
    (s.raw.autotemp = none → t = s) ∧
    (∀ z, s.raw.autotemp = some (.int z) → -5 ≤ z → z ≤ 5 → t.p.autotemp.val = z ∧ t.subst = s.subst) ∧
    (∀ r, s.raw.autotemp = some r → (∀ z, r = .int z → z < -5 ∨ 5 < z) →
      t.p.autotemp.val = 0 ∧ t.subst = s.subst.map (· ||| 0b000000010))

/-- R103: NORM.FAN. An integer 1 to 5 and the three symbols, matched exactly, are written; every other present raw value
gives auto and sets SUBST[2] where it exists. Only P[fan] and SUBST can change. -/
def Obligations.NormFanWritesValueOrDefault : Prop :=
  ∀ s : State, ∃ t, exec .normFan s = .next t ∧
    t = { s with p := { s.p with fan := t.p.fan }, subst := t.subst } ∧
    (s.raw.fan = none → t = s) ∧
    (∀ z, s.raw.fan = some (.int z) → 1 ≤ z → z ≤ 5 → (∃ n, t.p.fan = .speed n ∧ n.val = z) ∧ t.subst = s.subst) ∧
    (s.raw.fan = some (.sym "auto") → t.p.fan = .auto ∧ t.subst = s.subst) ∧
    (s.raw.fan = some (.sym "quiet") → t.p.fan = .quiet ∧ t.subst = s.subst) ∧
    (s.raw.fan = some (.sym "nice") → t.p.fan = .nice ∧ t.subst = s.subst) ∧
    (∀ r, s.raw.fan = some r → (∀ z, r = .int z → z < 1 ∨ 5 < z) → r ≠ .sym "auto" → r ≠ .sym "quiet" →
      r ≠ .sym "nice" → t.p.fan = .auto ∧ t.subst = s.subst.map (· ||| 0b000000100))

/-- R104, R105, R109: NORM.SWING, NORM.STATE and NORM.STREAMER. A boolean is written; every other present raw value gives
false and sets SUBST[3], SUBST[4], SUBST[8] where it exists. Only the operation's register and SUBST can change. -/
def Obligations.NormBooleansWriteValueOrDefault : Prop :=
  (∀ s : State, ∃ t, exec .normSwing s = .next t ∧
    t = { s with p := { s.p with swing := t.p.swing }, subst := t.subst } ∧
    (s.raw.swing = none → t = s) ∧
    (∀ b, s.raw.swing = some (.bool b) → t.p.swing = b ∧ t.subst = s.subst) ∧
    (∀ r, s.raw.swing = some r → (∀ b, r ≠ .bool b) →
      t.p.swing = false ∧ t.subst = s.subst.map (· ||| 0b000001000))) ∧
  (∀ s : State, ∃ t, exec .normState s = .next t ∧
    t = { s with p := { s.p with state := t.p.state }, subst := t.subst } ∧
    (s.raw.state = none → t = s) ∧
    (∀ b, s.raw.state = some (.bool b) → t.p.state = b ∧ t.subst = s.subst) ∧
    (∀ r, s.raw.state = some r → (∀ b, r ≠ .bool b) →
      t.p.state = false ∧ t.subst = s.subst.map (· ||| 0b000010000))) ∧
  (∀ s : State, ∃ t, exec .normStreamer s = .next t ∧
    t = { s with p := { s.p with streamer := t.p.streamer }, subst := t.subst } ∧
    (s.raw.streamer = none → t = s) ∧
    (∀ b, s.raw.streamer = some (.bool b) → t.p.streamer = b ∧ t.subst = s.subst) ∧
    (∀ r, s.raw.streamer = some r → (∀ b, r ≠ .bool b) →
      t.p.streamer = false ∧ t.subst = s.subst.map (· ||| 0b100000000)))

/-- R106: NORM.MODE. The five symbols, matched exactly, are written; every other present raw value, integers included,
gives auto and sets SUBST[5] where it exists. Only P[mode] and SUBST can change. -/
def Obligations.NormModeWritesValueOrDefault : Prop :=
  ∀ s : State, ∃ t, exec .normMode s = .next t ∧
    t = { s with p := { s.p with mode := t.p.mode }, subst := t.subst } ∧
    (s.raw.mode = none → t = s) ∧
    (∀ x ∈ [("auto", Mode.auto), ("dry", .dry), ("cold", .cold), ("hot", .hot), ("fan", .fan)],
      s.raw.mode = some (.sym x.1) → t.p.mode = x.2 ∧ t.subst = s.subst) ∧
    (∀ r, s.raw.mode = some r → (∀ x ∈ ["auto", "dry", "cold", "hot", "fan"], r ≠ .sym x) →
      t.p.mode = .auto ∧ t.subst = s.subst.map (· ||| 0b000100000))

/-- R107, R108: NORM.ONTIMER and NORM.OFFTIMER. An integer 0 to 12 is written; every other present raw value gives 0 and
sets SUBST[6], SUBST[7] where it exists. Only the operation's register and SUBST can change. -/
def Obligations.NormTimersWriteValueOrDefault : Prop :=
  (∀ s : State, ∃ t, exec .normOntimer s = .next t ∧
    t = { s with p := { s.p with ontimer := t.p.ontimer }, subst := t.subst } ∧
    (s.raw.ontimer = none → t = s) ∧
    (∀ z, s.raw.ontimer = some (.int z) → 0 ≤ z → z ≤ 12 → t.p.ontimer.val = z ∧ t.subst = s.subst) ∧
    (∀ r, s.raw.ontimer = some r → (∀ z, r = .int z → z < 0 ∨ 12 < z) →
      t.p.ontimer.val = 0 ∧ t.subst = s.subst.map (· ||| 0b001000000))) ∧
  (∀ s : State, ∃ t, exec .normOfftimer s = .next t ∧
    t = { s with p := { s.p with offtimer := t.p.offtimer }, subst := t.subst } ∧
    (s.raw.offtimer = none → t = s) ∧
    (∀ z, s.raw.offtimer = some (.int z) → 0 ≤ z → z ≤ 12 → t.p.offtimer.val = z ∧ t.subst = s.subst) ∧
    (∀ r, s.raw.offtimer = some r → (∀ z, r = .int z → z < 0 ∨ 12 < z) →
      t.p.offtimer.val = 0 ∧ t.subst = s.subst.map (· ||| 0b010000000)))

/-- R110, R205: the nine NORM operations are independent: any two give the same state in either order. -/
def Obligations.NormOperationsCommute : Prop :=
  ∀ i ∈ [Instr.normTemperature, .normAutotemp, .normFan, .normSwing, .normState, .normMode, .normOntimer, .normOfftimer,
      .normStreamer],
  ∀ j ∈ [Instr.normTemperature, .normAutotemp, .normFan, .normSwing, .normState, .normMode, .normOntimer, .normOfftimer,
      .normStreamer],
  ∀ s : State, ∃ t u v, exec i s = .next t ∧ exec j t = .next v ∧ exec j s = .next u ∧ exec i u = .next v

/-- R112: a raw value outside the domain of its field gives the same P, FA, FB and SEQ as the field absent, whatever the
other slots are and whatever the block did before. -/
def Obligations.InvalidSlotActsAsAbsent : Prop :=
  ∀ (s u : State) (f : Field) (r : Raw), s.busy = false → u.busy = false → ¬ inDomain f r →
    s.pins.slots.get f = some r → u.pins.slots = s.pins.slots.set f none →
    ∃ t v, exec .encode s = .next t ∧ exec .encode u = .next v ∧ t.p = v.p ∧ t.seq = v.seq ∧
      (∀ i, i < 20 → t.loadByte .A i = v.loadByte .A i) ∧ (∀ i, i < 19 → t.loadByte .B i = v.loadByte .B i)

/-- R111: after ENCODE, where SUBST exists, its bit for a slot is set exactly when the slot was present and its raw value
outside the domain; where SUBST does not exist it stays absent. -/
def Obligations.SubstReportsTheInvalidSlots : Prop :=
  ∀ s : State, s.busy = false → ∃ t, exec .encode s = .next t ∧ (s.subst = none → t.subst = none) ∧
    (∀ w, s.subst = some w → ∃ x, t.subst = some x ∧
      ∀ f : Field, x.getLsbD f.slot = true ↔ ∃ r, s.pins.slots.get f = some r ∧ ¬ inDomain f r)

/-- R34, R111: SUBST is read by no operation: with another SUBST every operation has the same effect on everything
else, and it neither creates nor removes SUBST. -/
def Obligations.SubstIsReadByNoOperation : Prop :=
  ∀ (i : Instr) (s t : State) (x : Option (BitVec 9)), exec i s = .next t →
    ∃ u, exec i { s with subst := x } = .next u ∧ u = { t with subst := u.subst } ∧ u.subst.isSome = x.isSome

/-! ### The frame builder -/

/-- R120: BUILD.A writes the 20 bytes of Frame A, its last byte 0, and changes nothing else. -/
def Obligations.BuildAWritesFrameA : Prop :=
  ∀ s : State, ∃ t, exec .buildA s = .next t ∧ t = { s with fa := t.fa } ∧
    (∀ i, i < 20 → (t.loadByte .A i).toNat = (wireFrameA s.p).getD i 0) ∧
    (∀ i, 20 ≤ i → t.loadByte .A i = s.loadByte .A i)

/-- R125: BUILD.B writes the 19 bytes of Frame B, its last byte 0, and T, and changes nothing else. The dynamic bytes
and T are those of R71 to R80 in plain arithmetic. -/
def Obligations.BuildBWritesFrameB : Prop :=
  ∀ s : State, ∃ t, exec .buildB s = .next t ∧ t = { s with fb := t.fb, t := t.t } ∧ t.t.toNat = wireTimer s.p ∧
    (∀ i, i < 19 → (t.loadByte .B i).toNat = (wireFrameB s.p).getD i 0) ∧
    (∀ i, 19 ≤ i → t.loadByte .B i = s.loadByte .B i)

/-- R121, R123: the operations of the constant bytes of Frame A write them and nothing else. -/
def Obligations.FrameAConstantBytesAreWritten : Prop :=
  ∀ x ∈ [(Instr.fa0, 0, [17]), (.fa1, 1, [218]), (.fa2, 2, [39]), (.fa3, 3, [0]), (.fa4, 4, [1]),
      (.fa5to7, 5, [0, 0, 0]), (.fa9to18, 9, [0, 0, 0, 0, 0, 0, 0, 0, 0, 0])],
  ∀ s : State, ∃ t, exec x.1 s = .next t ∧ t = { s with fa := t.fa } ∧
    ∀ i, t.loadByte .A i = if x.2.1 ≤ i ∧ i < x.2.1 + x.2.2.length then x.2.2.getD (i - x.2.1) (0 : Byte)
      else s.loadByte .A i

/-- R122: FA[8] is 0x10 when the normalized fan is nice and 0 otherwise; nothing else changes. -/
def Obligations.NiceBitIsWritten : Prop :=
  ∀ s : State, ∃ t, exec .fa8 s = .next t ∧ t = { s with fa := t.fa } ∧
    t.loadByte .A 8 = (if s.p.fan = .nice then 0x10 else 0) ∧ ∀ i, i ≠ 8 → t.loadByte .A i = s.loadByte .A i

/-- R126, R127, R135: the operations of FB[0] to FB[4] and FB[13] to FB[17] write those bytes, FB[16] with the streamer
bit, and nothing else. -/
def Obligations.FrameBConstantAndStreamerBytesAreWritten : Prop :=
  (∀ x ∈ [(Instr.fb0, 0, [17]), (.fb1, 1, [218]), (.fb2, 2, [39]), (.fb3, 3, [0]), (.fb4, 4, [0]),
      (.fb13to14, 13, [0, 0]), (.fb15, 15, [193]), (.fb17, 17, [0])],
    ∀ s : State, ∃ t, exec x.1 s = .next t ∧ t = { s with fb := t.fb } ∧
      ∀ i, t.loadByte .B i = if x.2.1 ≤ i ∧ i < x.2.1 + x.2.2.length then x.2.2.getD (i - x.2.1) (0 : Byte)
        else s.loadByte .B i) ∧
  (∀ s : State, ∃ t, exec .fb16 s = .next t ∧ t = { s with fb := t.fb } ∧
    (t.loadByte .B 16).toNat = wireStreamer s.p ∧ ∀ i, i ≠ 16 → t.loadByte .B i = s.loadByte .B i)

/-- R129: FB[5] carries the state flag, the two timer flags, the constant 1 in bit 3 and the mode code; nothing else
changes. -/
def Obligations.FlagsByteIsWritten : Prop :=
  ∀ s : State, ∃ t, exec .fb5 s = .next t ∧ t = { s with fb := t.fb } ∧
    ((t.loadByte .B 5).getLsbD 0 = true ↔ s.p.state = true) ∧
    ((t.loadByte .B 5).getLsbD 1 = true ↔ 0 < s.p.ontimer.val) ∧
    ((t.loadByte .B 5).getLsbD 2 = true ↔ 0 < s.p.offtimer.val) ∧
    (t.loadByte .B 5).getLsbD 3 = true ∧ (t.loadByte .B 5).toNat / 16 = wireMode s.p.mode ∧
    ∀ i, i ≠ 5 → t.loadByte .B i = s.loadByte .B i

/-- R130: the three forms of FB[6]. Each operation writes its form when the mode selects it and leaves the state as it is
otherwise (the latter is the model's choice, log entry 9); performed one after the other they give the byte of R130. -/
def Obligations.TemperatureByteFormsAreWritten : Prop :=
  (∀ s : State, ∃ t, exec .fb6Autodry s = .next t ∧ t = { s with fb := t.fb } ∧
    (s.p.mode = .auto ∨ s.p.mode = .dry →
      (t.loadByte .B 6).toNat = 192 + 2 * (if s.p.autotemp.val < 0 then 16 + s.p.autotemp.val else s.p.autotemp.val).toNat) ∧
    (¬ (s.p.mode = .auto ∨ s.p.mode = .dry) → t = s) ∧ ∀ i, i ≠ 6 → t.loadByte .B i = s.loadByte .B i) ∧
  (∀ s : State, ∃ t, exec .fb6Coldhot s = .next t ∧ t = { s with fb := t.fb } ∧
    (s.p.mode = .cold ∨ s.p.mode = .hot → (t.loadByte .B 6).toNat = 2 * s.p.temperature.val.toNat) ∧
    (¬ (s.p.mode = .cold ∨ s.p.mode = .hot) → t = s) ∧ ∀ i, i ≠ 6 → t.loadByte .B i = s.loadByte .B i) ∧
  (∀ s : State, ∃ t, exec .fb6Fan s = .next t ∧ t = { s with fb := t.fb } ∧
    (s.p.mode = .fan → t.loadByte .B 6 = 0) ∧ (s.p.mode ≠ .fan → t = s) ∧
    ∀ i, i ≠ 6 → t.loadByte .B i = s.loadByte .B i) ∧
  (∀ s : State, ∃ t, performAll [.fb6Autodry, .fb6Coldhot, .fb6Fan] s = .next t ∧
    (t.loadByte .B 6).toNat = wireTemp s.p)

/-- R131: FB[7] is 0x80 under auto and dry and 0 otherwise; nothing else changes. -/
def Obligations.CompanionByteIsWritten : Prop :=
  ∀ s : State, ∃ t, exec .fb7 s = .next t ∧ t = { s with fb := t.fb } ∧
    t.loadByte .B 7 = (if s.p.mode = .auto ∨ s.p.mode = .dry then 0x80 else 0) ∧
    ∀ i, i ≠ 7 → t.loadByte .B i = s.loadByte .B i

/-- R132: FB[8] carries the fan code in bits 7 to 4 and the swing nibble in bits 3 to 0; nothing else changes. -/
def Obligations.FanSwingByteIsWritten : Prop :=
  ∀ s : State, ∃ t, exec .fb8 s = .next t ∧ t = { s with fb := t.fb } ∧
    (t.loadByte .B 8).toNat / 16 = wireFan s.p.fan ∧
    (t.loadByte .B 8).toNat % 16 = (if s.p.swing then 15 else 0) ∧
    ∀ i, i ≠ 8 → t.loadByte .B i = s.loadByte .B i

/-- R134: the operations of FB[9] to FB[12] write the four bytes of T, little-endian, and nothing else. -/
def Obligations.TimerBytesAreWritten : Prop :=
  ∀ x ∈ [(Instr.fb9, 9), (.fb10, 10), (.fb11, 11), (.fb12, 12)], ∀ s : State, ∃ t, exec x.1 s = .next t ∧
    t = { s with fb := t.fb } ∧ (t.loadByte .B x.2).toNat = s.t.toNat / 2 ^ (8 * (x.2 - 9)) % 256 ∧
    ∀ i, i ≠ x.2 → t.loadByte .B i = s.loadByte .B i

/-- R92, R120, R125: BUILD.A and BUILD.B are their byte operations, performed in the table's order on a state that holds
the placeholder and, for Frame B, the timer word. What a byte operation does when it is performed alone is the model's
choice of log entry 9: a form of FB[6] that the mode does not select writes nothing, and no row writes the placeholders
or T. -/
def Obligations.BuildsAreTheirByteOperations : Prop :=
  (∀ s : State, ∃ t u, exec .buildA s = .next t ∧
    performAll [.fa0, .fa1, .fa2, .fa3, .fa4, .fa5to7, .fa8, .fa9to18] (s.storeByte .A 19 0) = .next u ∧
    ∀ i, t.loadByte .A i = u.loadByte .A i) ∧
  (∀ s : State, ∃ t u, exec .buildB s = .next t ∧
    performAll [.fb0, .fb1, .fb2, .fb3, .fb4, .fb5, .fb6Autodry, .fb6Coldhot, .fb6Fan, .fb7, .fb8, .fb9, .fb10, .fb11,
      .fb12, .fb13to14, .fb15, .fb16, .fb17] ({ s with t := timerWord s.p }.storeByte .B 18 0) = .next u ∧
    t.t = u.t ∧ ∀ i, t.loadByte .B i = u.loadByte .B i)

/-- R138: over every Command, the builder's expressions lie within the bounds of all seven rows of the table: the row
of a timer times 15 for an enabled timer, on and off. And bit 31 and bits 9 to 0 of T are never set (R78). -/
def Obligations.BuilderValuesLieInTheirRanges : Prop :=
  ∀ p : Command,
    (0x08 ≤ (flagsMode p).toNat ∧ (flagsMode p).toNat ≤ 0x6F) ∧
    (0 ≤ (autotempCode p.autotemp <<< 1).toNat ∧ (autotempCode p.autotemp <<< 1).toNat ≤ 30) ∧
    (0xC0 ≤ (autotempByte p).toNat ∧ (autotempByte p).toNat ≤ 0xDE) ∧
    (28 ≤ (temperatureByte p).toNat ∧ (temperatureByte p).toNat ≤ 60) ∧
    (0x30 ≤ (fanSwing p).toNat ∧ (fanSwing p).toNat ≤ 0xBF) ∧
    (0 < p.ontimer.val → 15 ≤ p.ontimer.val * timerFactor ∧ p.ontimer.val * timerFactor ≤ 180) ∧
    (0 < p.offtimer.val → 15 ≤ p.offtimer.val * timerFactor ∧ p.offtimer.val * timerFactor ≤ 180) ∧
    (0x03C03C00 ≤ (timerWord p).toNat ∧ (timerWord p).toNat ≤ 0x60060000) ∧
    (timerWord p).getLsbD 31 = false ∧ (timerWord p).toNat % 1024 = 0

/-! ### The checksums -/

/-- R150: accumulating in a byte that discards the carry gives the exact sum mod 256. -/
def Obligations.ChecksumIsTheSumModulo256 : Prop :=
  ∀ bs : List Byte, (csum bs).toNat = (bs.map BitVec.toNat).sum % 256

/-- R151: CSUM.A, and the operation of the byte FA[19], write the sum of FA[0..18] mod 256 to FA[19] and nothing else. -/
def Obligations.ChecksumAIsWritten : Prop :=
  ∀ i ∈ [Instr.csumA, .fa19], ∀ s : State, ∃ t, exec i s = .next t ∧ t = { s with fa := t.fa } ∧
    (t.loadByte .A 19).toNat = s.payloadSum .A 19 ∧ ∀ j, j ≠ 19 → t.loadByte .A j = s.loadByte .A j

/-- R152: CSUM.B, and the operation of the byte FB[18], write the sum of FB[0..17] mod 256 to FB[18] and nothing else. -/
def Obligations.ChecksumBIsWritten : Prop :=
  ∀ i ∈ [Instr.csumB, .fb18], ∀ s : State, ∃ t, exec i s = .next t ∧ t = { s with fb := t.fb } ∧
    (t.loadByte .B 18).toNat = s.payloadSum .B 18 ∧ ∀ j, j ≠ 18 → t.loadByte .B j = s.loadByte .B j

/-- R154: after stage CHECKSUM the last byte of each frame is the sum of the others mod 256, in every state of the
pipeline and after the operation ENCODE. -/
def Obligations.FramesCarryTheirChecksums : Prop :=
  (∀ s : State, s.PipelineInv → (s.stage = .emit ∨ s.stage = .done) →
    (s.loadByte .A 19).toNat = s.payloadSum .A 19 ∧ (s.loadByte .B 18).toNat = s.payloadSum .B 18) ∧
  (∀ s : State, s.busy = false → ∃ t, exec .encode s = .next t ∧
    (t.loadByte .A 19).toNat = t.payloadSum .A 19 ∧ (t.loadByte .B 18).toNat = t.payloadSum .B 18)

/-- R62: Frame A takes exactly two values, by whether fan is nice. -/
def Obligations.FrameATakesTwoValues : Prop :=
  ∀ s : State, s.busy = false → ∃ t, exec .encode s = .next t ∧
    t.loadBytes .A 20 =
      if s.pins.slots.fan = some (.sym "nice") then
        [0x11, 0xDA, 0x27, 0, 1, 0, 0, 0, 0x10, 0, 0, 0, 0, 0, 0, 0, 0, 0, 0, 0x23]
      else [0x11, 0xDA, 0x27, 0, 1, 0, 0, 0, 0, 0, 0, 0, 0, 0, 0, 0, 0, 0, 0, 0x13]

/-! ### The pulse sequencer -/

/-- R161 (and the symbol LEADER of R82): ten entries of 440 are appended; nothing else changes. -/
def Obligations.LeaderIsEmitted : Prop :=
  ∀ i ∈ [Instr.emitLeader, .leader], ∀ s : State, s.k ≤ 634 →
    exec i s = .next { s with seq := s.seq ++ List.replicate 10 440, k := s.k + 10 }

/-- R162 (and the symbol MARKER of R82): 440, 25250, 3450, 1750 are appended; nothing else changes. -/
def Obligations.MarkerIsEmitted : Prop :=
  ∀ i ∈ [Instr.emitMarker, .marker], ∀ s : State, s.k ≤ 640 →
    exec i s = .next { s with seq := s.seq ++ [440, 25250, 3450, 1750], k := s.k + 4 }

/-- R163, R164 (and the symbols STOP, BIT0 and BIT1 of R82): the two entries of a bit are appended, 440 and 440 for a 0
and for the stop, 440 and 1300 for a 1; nothing else changes. -/
def Obligations.BitAndStopAreEmitted : Prop :=
  ∀ x ∈ [(Instr.emitStop, [440, 440]), (.emitBit false, [440, 440]), (.emitBit true, [440, 1300]),
      (.bit0, [440, 440]), (.bit1, [440, 1300]), (.stop, [440, 440])],
  ∀ s : State, s.k ≤ 642 → exec x.1 s = .next { s with seq := s.seq ++ x.2, k := s.k + 2 }

/-- R165: EMIT.BYTE appends 16 entries, for bit j a 440 and then 1300 or 440 as the bit is 1 or 0, bit 0 first; nothing
else changes. -/
def Obligations.ByteIsEmittedBitZeroFirst : Prop :=
  ∀ (v : Byte) (s : State), s.k ≤ 628 → ∃ t, exec (.emitByte v) s = .next t ∧
    t = { s with seq := t.seq, k := s.k + 16 } ∧ t.seq.length = s.seq.length + 16 ∧ t.seq.take s.seq.length = s.seq ∧
    ∀ j, j < 8 → t.seq[s.seq.length + 2 * j]? = some 440 ∧
      t.seq[s.seq.length + 2 * j + 1]? = some (if v.getLsbD j then 1300 else 440)

/-- R166: EMIT.FRAME appends the 16 entries of every byte of the frame, offset 0 first; nothing else changes. -/
def Obligations.FrameIsEmittedInOffsetOrder : Prop :=
  ∀ (f : FrameName) (s : State), s.k + 16 * f.length ≤ 644 → ∃ t, exec (.emitFrame f f.length) s = .next t ∧
    t = { s with seq := t.seq, k := s.k + 16 * f.length } ∧ t.seq.length = s.seq.length + 16 * f.length ∧
    t.seq.take s.seq.length = s.seq ∧
    ∀ i j, i < f.length → j < 8 → t.seq[s.seq.length + 16 * i + 2 * j]? = some 440 ∧
      t.seq[s.seq.length + 16 * i + 2 * j + 1]? = some (if (s.loadByte f i).getLsbD j then 1300 else 440)

/-- The model's choice of log entry 5: K stops at 644 (R31), so an emission, in every state, appends the entries for which
SEQ has room and drops the others; nothing else changes. -/
def Obligations.EmissionStopsAtTheSequenceLength : Prop :=
  ∀ s : State,
    let capped (ds : List Duration) : State :=
      { s with seq := s.seq ++ ds.take (644 - s.k), k := s.k + min (644 - s.k) ds.length }
    let bits (v : Byte) : List Duration := (List.range 8).flatMap fun j => [440, if v.getLsbD j then 1300 else 440]
    (∀ x ∈ [(Instr.emitLeader, List.replicate 10 440), (.emitMarker, [440, 25250, 3450, 1750]), (.emitStop, [440, 440]),
        (.leader, List.replicate 10 440), (.marker, [440, 25250, 3450, 1750]), (.stop, [440, 440]),
        (.bit0, [440, 440]), (.bit1, [440, 1300])], exec x.1 s = .next (capped x.2)) ∧
    (∀ b, exec (.emitBit b) s = .next (capped [440, if b then 1300 else 440])) ∧
    (∀ v, exec (.emitByte v) s = .next (capped (bits v))) ∧
    (∀ f, exec (.emitFrame f f.length) s =
      .next (capped ((List.range f.length).flatMap fun i => bits (s.loadByte f i))))

/-- R167: SEQUENCE replaces SEQ by LEADER, MARKER, the bits of FA, MARKER, the bits of FB and STOP, leaves K at 644, and
changes nothing else. -/
def Obligations.SequenceIsTheSixSegments : Prop :=
  ∀ s : State, exec .sequence s = .next { s with
    seq := List.replicate 10 440 ++ [440, 25250, 3450, 1750] ++
      ((List.range 20).flatMap fun i => (List.range 8).flatMap fun j =>
        [440, if (s.loadByte .A i).getLsbD j then 1300 else 440]) ++
      [440, 25250, 3450, 1750] ++
      ((List.range 19).flatMap fun i => (List.range 8).flatMap fun j =>
        [440, if (s.loadByte .B i).getLsbD j then 1300 else 440]) ++
      [440, 440]
    k := 644 }

/-- R168: the entry of the sequence at every index k, by the rule's cases; and a block in EMIT whose K is k offers that
entry as its output word. -/
def Obligations.SequenceEntryByIndex : Prop :=
  ∀ (s : State) (k : Nat), k < 644 → ∃ t, exec .sequence s = .next t ∧ t.seq[k]? = some (s.entryAt k) ∧
    (s.stage = .emit → s.k = k → s.outValid = true ∧ some s.outWord = t.seq[k]?) ∧
    s.entryAt k =
      if k ≤ 9 then 440
      else if k ≤ 13 then [440, 25250, 3450, 1750].getD (k - 10) 0
      else if k ≤ 333 then
        if (k - 14) % 2 = 0 then 440
        else if (s.loadByte .A ((k - 14) / 16)).getLsbD ((k - 14) % 16 / 2) then 1300 else 440
      else if k ≤ 337 then [440, 25250, 3450, 1750].getD (k - 334) 0
      else if k ≤ 641 then
        if (k - 338) % 2 = 0 then 440
        else if (s.loadByte .B ((k - 338) / 16)).getLsbD ((k - 338) % 16 / 2) then 1300 else 440
      else 440

/-- R170, R172: for every command the sequence has exactly 644 entries and begins with 440. -/
def Obligations.EverySequenceHas644Entries : Prop :=
  ∀ s : State, s.busy = false → ∃ t, exec .encode s = .next t ∧ t.seq.length = 644 ∧ t.seq.head? = some 440

/-- R86, R171: for every command, every entry at an even index (a mark) is 440 except SEQ[12] and SEQ[336], and every
entry at an odd index (a space) is 440 or 1300 except SEQ[11], SEQ[335], SEQ[13] and SEQ[337]. -/
def Obligations.MarksAndSpacesAlternate : Prop :=
  ∀ s : State, s.busy = false → ∃ t, exec .encode s = .next t ∧
    ∀ k, k < 644 →
      if k = 12 ∨ k = 336 then t.seq[k]? = some 3450
      else if k = 11 ∨ k = 335 then t.seq[k]? = some 25250
      else if k = 13 ∨ k = 337 then t.seq[k]? = some 1750
      else if k % 2 = 0 then t.seq[k]? = some 440
      else t.seq[k]? = some 440 ∨ t.seq[k]? = some 1300

/-- R173: the durations of the sequence sum to 341620 + 860 N1, N1 the number of 1 bits in the two frames. -/
def Obligations.DurationsSumByTheOneBits : Prop :=
  ∀ s : State, ∃ t, exec .sequence s = .next t ∧
    (t.seq.map BitVec.toNat).sum = 341620 + 860 * s.onesInFrames

/-! ### ENCODE and the pipeline -/

/-- R182: the operation ENCODE is the function of R182: RAW, P, T, the two frames and SEQ are those of the presented
slots; STAGE is DONE, K is 644; the rest is untouched. The debug taps of R212 show exactly P, T and the two frames: after
ENCODE, and in EMIT and DONE of the pipeline, those of the captured command; in an idle block the registers as they stand
(R221), and so after a reset the reset values; in NORMALIZE, BUILD and CHECKSUM nothing. Which stages these are is the
model's reading of R212 and R221 together, log entry 20. -/
def Obligations.EncodeIsTheFunctionOfItsSlots : Prop :=
  (∀ s : State, s.busy = false → ∃ t, exec .encode s = .next t ∧
    t.stage = .done ∧ t.raw = s.pins.slots ∧ t.p = normalizedCommand s.pins.slots ∧ t.t = timerWord t.p ∧
    t.loadBytes .A 20 = frameA t.p ∧ t.loadBytes .B 19 = frameB t.p ∧ t.seq = encodeFunction s.pins.slots ∧ t.k = 644 ∧
    (∀ i, 20 ≤ i → t.loadByte .A i = s.loadByte .A i) ∧ (∀ i, 19 ≤ i → t.loadByte .B i = s.loadByte .B i) ∧
    t.ops = s.ops ∧ t.inputs = s.inputs ∧ t.taps = some ⟨t.p, t.t, frameA t.p, frameB t.p⟩) ∧
  (∀ s : State, (s.stage = .idle ∨ s.stage = .emit ∨ s.stage = .done) →
    s.taps = some ⟨s.p, s.t, s.loadBytes .A 20, s.loadBytes .B 19⟩) ∧
  (∀ s : State, (s.stage = .normalize ∨ s.stage = .build ∨ s.stage = .checksum) → s.taps = none) ∧
  (∀ s : State, s.pins.reset = true → ∃ t, step s = .next t ∧
    t.taps = some ⟨Command.defaults, 0, List.replicate 20 0, List.replicate 19 0⟩) ∧
  (∀ s : State, s.PipelineInv → (s.stage = .emit ∨ s.stage = .done) →
    let p := normalizedCommand s.raw
    s.taps = some ⟨p, timerWord p, frameA p, frameB p⟩)

/-- R183: the same nine slots give the same sequence, the same P and the same frames, whatever the two blocks did
before. -/
def Obligations.EncodeDependsOnItsSlotsAlone : Prop :=
  ∀ s u : State, s.busy = false → u.busy = false → s.pins.slots = u.pins.slots →
    ∃ t v, exec .encode s = .next t ∧ exec .encode u = .next v ∧ t.seq = v.seq ∧ t.p = v.p ∧
      t.loadBytes .A 20 = v.loadBytes .A 20 ∧ t.loadBytes .B 19 = v.loadBytes .B 19

/-- Section 6 of 95_test_vectors.md: two commands give the same sequence exactly when their normalized forms agree on
fan, swing, state, streamer, ontimer, offtimer and mode, on autotemp under auto and dry, and on temperature under cold
and hot. -/
def Obligations.SequencesSeparateCommands : Prop :=
  ∀ c d : PartialCommand, encodeFunction c = encodeFunction d ↔
    let p := normalizedCommand c
    let q := normalizedCommand d
    p.fan = q.fan ∧ p.swing = q.swing ∧ p.state = q.state ∧ p.streamer = q.streamer ∧ p.ontimer = q.ontimer ∧
    p.offtimer = q.offtimer ∧ p.mode = q.mode ∧
    ((p.mode = .auto ∨ p.mode = .dry) → p.autotemp = q.autotemp) ∧
    ((p.mode = .cold ∨ p.mode = .hot) → p.temperature = q.temperature)

/-- R180, R182: the stepping block and the function agree: from an accepted start, with a consumer that takes every word
and no reset, 662 steps reach DONE with exactly the registers that the operation ENCODE gives. THE MODEL'S CHOICES in it:
what one step is, and so the count 662, is log entry 3; the schedule of inputs, and that past its end no reset is asserted
and the consumer is ready, is log entry 4. -/
def Obligations.SteppedOperationIsEncode : Prop :=
  ∀ (s : State) (q : Pins) (qs : List Pins), s.ops = [] → (s.stage = .idle ∨ s.stage = .done) → s.inputs = q :: qs →
    q.reset = false → q.start = true → (∀ x ∈ qs, x.reset = false ∧ x.outReady = true) →
    ∃ t, exec .encode s = .next t ∧ t.stage = .done ∧ t.seq = encodeFunction q.slots ∧
      Host.Core.run core 662 s = .next { t with inputs := s.inputs.drop 662 }

/-- R184: a BUSY block in the pipeline comes closer to DONE at every step, unless it offers a word and the consumer is not
ready. -/
def Obligations.OperationWaitsOnlyForTheConsumer : Prop :=
  ∀ s : State, s.PipelineInv → s.busy = true → s.pins.reset = false → (s.stage = .emit → s.pins.outReady = true) →
    ∃ t, step s = .next t ∧ t.remaining < s.remaining ∧ (t.remaining = 0 → t.stage = .done)

/-- The invariant of the pipeline is kept by every step, whatever the caller and the consumer do (start, other slots,
reset, a stalled output), and no step from it stops (R23, R49 to R51, R180, R200). -/
def Obligations.PipelineInvariantIsKept : Prop :=
  ∀ s : State, s.PipelineInv → ∃ t, step s = .next t ∧ t.PipelineInv

/-- The structural invariant is kept by every step from every state, whatever operations are left: the frame buffers keep
their canonical form inside their sizes (R40), and K is the number of entries emitted and at most 644 (R31). -/
def Obligations.StructuralInvariantIsKept : Prop :=
  ∀ s t : State, s.Inv → step s = .next t → t.Inv

/-- The reset state meets both invariants. -/
def Obligations.ResetMeetsTheInvariants : Prop := State.reset.Inv ∧ State.reset.PipelineInv

/-- R200: no well-formed operation faults or is refused, in any state. The operations that do stop are the ill-formed
EMIT.FRAMEs whose length runs past their frame (the model's choice, log entry 10). -/
def Obligations.EveryOperationCompletes : Prop :=
  (∀ (i : Instr) (s : State), i.wf = true → ∃ t, exec i s = .next t) ∧
  (∀ (f : FrameName) (n : Nat) (s : State), f.length < n →
    exec (.emitFrame f n) s = .fault (.noSuchOffset f f.length)) ∧
  (∀ (i : Instr) (s : State), (¬ ∃ t, exec i s = .next t) → ∃ f n, i = .emitFrame f n ∧ f.length < n)
end

