-- ==== Sys2Proof/Laws/Memory.lean ====
section
/-! SUPPORT. The frame buffers: a read after a write, and the canonical form that every write keeps. -/

namespace Sys2Proof.Machine

theorem Memory.get_filter_ne (m : Memory) (a b : Nat) (h : b ≠ a) :
    Memory.get (m.filter fun c => c.1 != a) b = Memory.get m b := by
  induction m with
  | nil => rfl
  | cons c m ih =>
    by_cases hc : c.1 = a
    · simp [hc, Memory.get, ih, Ne.symm h]
    · simp [hc, Memory.get, ih]

theorem Memory.get_filter_self (m : Memory) (a : Nat) : Memory.get (m.filter fun c => c.1 != a) a = 0 := by
  induction m with
  | nil => rfl
  | cons c m ih =>
    by_cases hc : c.1 = a
    · simpa [List.filter_cons, hc] using ih
    · simpa [List.filter_cons, hc, Memory.get] using ih

theorem Memory.get_insert (c : Host.Cell) (m : Memory) (h : ∀ d ∈ m, d.1 ≠ c.1) (b : Nat) :
    Memory.get (Memory.insert c m) b = if c.1 = b then c.2 else Memory.get m b := by
  induction m with
  | nil => rfl
  | cons d m ih =>
    have hd : d.1 ≠ c.1 := h d (by simp)
    have ih := ih fun e he => h e (by simp [he])
    unfold Memory.insert
    split
    · rfl
    · simp only [Memory.get, ih]
      by_cases hb : d.1 = b
      · have : c.1 ≠ b := fun hcb => hd (hb.trans hcb.symm)
        simp [hb, this]
      · simp [hb]

theorem Memory.not_mem_filter (m : Memory) (a : Nat) : ∀ d ∈ m.filter (fun c => c.1 != a), d.1 ≠ a := by
  intro d hd
  simpa using (List.mem_filter.mp hd).2

/-- A read after a write: the written byte at its offset, every other byte as before. It holds of every buffer. -/
theorem Memory.get_set (m : Memory) (a b : Nat) (v : Byte) :
    Memory.get (Memory.set m a v) b = if a = b then v else Memory.get m b := by
  unfold Memory.set
  by_cases hab : a = b
  · subst hab
    split
    · rename_i hv
      simp [hv, Memory.get_filter_self]
    · rw [Memory.get_insert _ _ (Memory.not_mem_filter m a)]
      simp
  · split
    · simp [Memory.get_filter_ne m a b (Ne.symm hab)]
    · rw [Memory.get_insert _ _ (Memory.not_mem_filter m a)]
      simp [hab, Memory.get_filter_ne m a b (Ne.symm hab)]

@[simp] theorem Memory.get_set_self (m : Memory) (a : Nat) (v : Byte) : Memory.get (Memory.set m a v) a = v := by
  simp [Memory.get_set]

/-- The canonical form as a fact about the whole list. -/
theorem Memory.canonical_iff (m : Memory) :
    Memory.canonical m = true ↔ (∀ c ∈ m, c.2 ≠ 0) ∧ m.Pairwise fun c d => c.1 < d.1 := by
  induction m with
  | nil => simp [Memory.canonical]
  | cons c m ih =>
    cases m with
    | nil => simp [Memory.canonical]
    | cons d m =>
      simp only [Memory.canonical, Bool.and_eq_true, ih, bne_iff_ne, decide_eq_true_eq]
      constructor
      · rintro ⟨⟨hc, hcd⟩, hm, hp⟩
        refine ⟨List.forall_mem_cons.mpr ⟨hc, hm⟩, ?_⟩
        refine List.pairwise_cons.mpr ⟨?_, hp⟩
        intro e he
        rcases List.mem_cons.mp he with rfl | he
        · exact hcd
        · exact lt_trans hcd ((List.pairwise_cons.mp hp).1 e he)
      · rintro ⟨hm, hp⟩
        have hp := List.pairwise_cons.mp hp
        exact ⟨⟨hm c (by simp), hp.1 d (by simp)⟩, fun e he => hm e (by simp [he]), hp.2⟩

theorem Memory.mem_insert (c d : Host.Cell) (m : Memory) : d ∈ Memory.insert c m ↔ d = c ∨ d ∈ m := by
  induction m with
  | nil => simp [Memory.insert]
  | cons e m ih =>
    unfold Memory.insert
    split
    · simp
    · simp [ih]
      tauto

theorem Memory.insert_pairwise (c : Host.Cell) (m : Memory) (h : m.Pairwise fun c d => c.1 < d.1)
    (hc : ∀ d ∈ m, d.1 ≠ c.1) : (Memory.insert c m).Pairwise fun c d => c.1 < d.1 := by
  induction m with
  | nil => simp [Memory.insert]
  | cons e m ih =>
    have he := List.pairwise_cons.mp h
    unfold Memory.insert
    split
    · rename_i hlt
      refine List.pairwise_cons.mpr ⟨?_, h⟩
      intro d hd
      rcases List.mem_cons.mp hd with rfl | hd
      · exact hlt
      · exact lt_trans hlt (he.1 d hd)
    · rename_i hlt
      refine List.pairwise_cons.mpr ⟨?_, ih he.2 fun d hd => hc d (by simp [hd])⟩
      intro d hd
      rcases (Memory.mem_insert c d m).mp hd with rfl | hd
      · exact lt_of_le_of_ne (not_lt.mp hlt) (hc e (by simp))
      · exact he.1 d hd

/-- Every write of a byte that the buffer has keeps its canonical form. -/
theorem Memory.set_wf (n : Nat) (m : Memory) (a : Nat) (v : Byte) (ha : a < n) (h : Memory.wf n m = true) :
    Memory.wf n (Memory.set m a v) = true := by
  simp only [Memory.wf, Bool.and_eq_true, Memory.canonical_iff, List.all_eq_true, decide_eq_true_eq] at h ⊢
  obtain ⟨⟨hz, hp⟩, hb⟩ := h
  have hp' : (m.filter fun c => c.1 != a).Pairwise fun c d => c.1 < d.1 := hp.filter _
  have hmem : ∀ d ∈ m.filter (fun c => c.1 != a), d ∈ m := fun d hd => (List.mem_filter.mp hd).1
  unfold Memory.set
  split
  · exact ⟨⟨fun c hc => hz c (hmem c hc), hp'⟩, fun c hc => hb c (hmem c hc)⟩
  · rename_i hv
    refine ⟨⟨?_, Memory.insert_pairwise _ _ hp' (Memory.not_mem_filter m a)⟩, ?_⟩
    · intro c hc
      rcases (Memory.mem_insert _ _ _).mp hc with rfl | hc
      · exact hv
      · exact hz c (hmem c hc)
    · intro c hc
      rcases (Memory.mem_insert _ _ _).mp hc with rfl | hc
      · exact ha
      · exact hb c (hmem c hc)

/-- The buffers of the reset state have the canonical form. -/
theorem State.reset_wf : Memory.wf 20 State.reset.fa = true ∧ Memory.wf 19 State.reset.fb = true := by decide

end Sys2Proof.Machine
end

