-- ==== Sys2Proof/Laws/State.lean ====
section
/-! SUPPORT. One lemma per field per update of the state, each true by rfl, so that no proof unfolds a record
update. -/

namespace Sys2Proof.Machine

@[simp] theorem State.setP_raw (s : State) (p : Command) : (s.setP p).raw = s.raw := rfl
@[simp] theorem State.setP_p (s : State) (p : Command) : (s.setP p).p = p := rfl
@[simp] theorem State.setP_t (s : State) (p : Command) : (s.setP p).t = s.t := rfl
@[simp] theorem State.setP_fa (s : State) (p : Command) : (s.setP p).fa = s.fa := rfl
@[simp] theorem State.setP_fb (s : State) (p : Command) : (s.setP p).fb = s.fb := rfl
@[simp] theorem State.setP_seq (s : State) (p : Command) : (s.setP p).seq = s.seq := rfl
@[simp] theorem State.setP_stage (s : State) (p : Command) : (s.setP p).stage = s.stage := rfl
@[simp] theorem State.setP_k (s : State) (p : Command) : (s.setP p).k = s.k := rfl
@[simp] theorem State.setP_subst (s : State) (p : Command) : (s.setP p).subst = s.subst := rfl
@[simp] theorem State.setP_ops (s : State) (p : Command) : (s.setP p).ops = s.ops := rfl
@[simp] theorem State.setP_inputs (s : State) (p : Command) : (s.setP p).inputs = s.inputs := rfl

@[simp] theorem State.setT_raw (s : State) (w : BitVec 32) : (s.setT w).raw = s.raw := rfl
@[simp] theorem State.setT_p (s : State) (w : BitVec 32) : (s.setT w).p = s.p := rfl
@[simp] theorem State.setT_t (s : State) (w : BitVec 32) : (s.setT w).t = w := rfl
@[simp] theorem State.setT_fa (s : State) (w : BitVec 32) : (s.setT w).fa = s.fa := rfl
@[simp] theorem State.setT_fb (s : State) (w : BitVec 32) : (s.setT w).fb = s.fb := rfl
@[simp] theorem State.setT_seq (s : State) (w : BitVec 32) : (s.setT w).seq = s.seq := rfl
@[simp] theorem State.setT_stage (s : State) (w : BitVec 32) : (s.setT w).stage = s.stage := rfl
@[simp] theorem State.setT_k (s : State) (w : BitVec 32) : (s.setT w).k = s.k := rfl
@[simp] theorem State.setT_subst (s : State) (w : BitVec 32) : (s.setT w).subst = s.subst := rfl
@[simp] theorem State.setT_ops (s : State) (w : BitVec 32) : (s.setT w).ops = s.ops := rfl
@[simp] theorem State.setT_inputs (s : State) (w : BitVec 32) : (s.setT w).inputs = s.inputs := rfl

@[simp] theorem State.setStage_raw (s : State) (g : Stage) : (s.setStage g).raw = s.raw := rfl
@[simp] theorem State.setStage_p (s : State) (g : Stage) : (s.setStage g).p = s.p := rfl
@[simp] theorem State.setStage_t (s : State) (g : Stage) : (s.setStage g).t = s.t := rfl
@[simp] theorem State.setStage_fa (s : State) (g : Stage) : (s.setStage g).fa = s.fa := rfl
@[simp] theorem State.setStage_fb (s : State) (g : Stage) : (s.setStage g).fb = s.fb := rfl
@[simp] theorem State.setStage_seq (s : State) (g : Stage) : (s.setStage g).seq = s.seq := rfl
@[simp] theorem State.setStage_stage (s : State) (g : Stage) : (s.setStage g).stage = g := rfl
@[simp] theorem State.setStage_k (s : State) (g : Stage) : (s.setStage g).k = s.k := rfl
@[simp] theorem State.setStage_subst (s : State) (g : Stage) : (s.setStage g).subst = s.subst := rfl
@[simp] theorem State.setStage_ops (s : State) (g : Stage) : (s.setStage g).ops = s.ops := rfl
@[simp] theorem State.setStage_inputs (s : State) (g : Stage) : (s.setStage g).inputs = s.inputs := rfl

@[simp] theorem State.clearSeq_raw (s : State) : s.clearSeq.raw = s.raw := rfl
@[simp] theorem State.clearSeq_p (s : State) : s.clearSeq.p = s.p := rfl
@[simp] theorem State.clearSeq_t (s : State) : s.clearSeq.t = s.t := rfl
@[simp] theorem State.clearSeq_fa (s : State) : s.clearSeq.fa = s.fa := rfl
@[simp] theorem State.clearSeq_fb (s : State) : s.clearSeq.fb = s.fb := rfl
@[simp] theorem State.clearSeq_seq (s : State) : s.clearSeq.seq = [] := rfl
@[simp] theorem State.clearSeq_stage (s : State) : s.clearSeq.stage = s.stage := rfl
@[simp] theorem State.clearSeq_k (s : State) : s.clearSeq.k = 0 := rfl
@[simp] theorem State.clearSeq_subst (s : State) : s.clearSeq.subst = s.subst := rfl
@[simp] theorem State.clearSeq_ops (s : State) : s.clearSeq.ops = s.ops := rfl
@[simp] theorem State.clearSeq_inputs (s : State) : s.clearSeq.inputs = s.inputs := rfl

@[simp] theorem State.capture_raw (s : State) (c : PartialCommand) : (s.capture c).raw = c := rfl
@[simp] theorem State.capture_p (s : State) (c : PartialCommand) : (s.capture c).p = s.p := rfl
@[simp] theorem State.capture_t (s : State) (c : PartialCommand) : (s.capture c).t = s.t := rfl
@[simp] theorem State.capture_fa (s : State) (c : PartialCommand) : (s.capture c).fa = s.fa := rfl
@[simp] theorem State.capture_fb (s : State) (c : PartialCommand) : (s.capture c).fb = s.fb := rfl
@[simp] theorem State.capture_seq (s : State) (c : PartialCommand) : (s.capture c).seq = s.seq := rfl
@[simp] theorem State.capture_stage (s : State) (c : PartialCommand) : (s.capture c).stage = s.stage := rfl
@[simp] theorem State.capture_k (s : State) (c : PartialCommand) : (s.capture c).k = s.k := rfl
@[simp] theorem State.capture_subst (s : State) (c : PartialCommand) : (s.capture c).subst = s.subst := rfl
@[simp] theorem State.capture_ops (s : State) (c : PartialCommand) : (s.capture c).ops = s.ops := rfl
@[simp] theorem State.capture_inputs (s : State) (c : PartialCommand) : (s.capture c).inputs = s.inputs := rfl

@[simp] theorem State.tick_raw (s : State) : s.tick.raw = s.raw := rfl
@[simp] theorem State.tick_p (s : State) : s.tick.p = s.p := rfl
@[simp] theorem State.tick_t (s : State) : s.tick.t = s.t := rfl
@[simp] theorem State.tick_fa (s : State) : s.tick.fa = s.fa := rfl
@[simp] theorem State.tick_fb (s : State) : s.tick.fb = s.fb := rfl
@[simp] theorem State.tick_seq (s : State) : s.tick.seq = s.seq := rfl
@[simp] theorem State.tick_stage (s : State) : s.tick.stage = s.stage := rfl
@[simp] theorem State.tick_k (s : State) : s.tick.k = s.k := rfl
@[simp] theorem State.tick_subst (s : State) : s.tick.subst = s.subst := rfl
@[simp] theorem State.tick_ops (s : State) : s.tick.ops = s.ops := rfl
@[simp] theorem State.tick_inputs (s : State) : s.tick.inputs = s.inputs.tail := rfl

@[simp] theorem State.setOps_raw (s : State) (bs : List Byte) : (s.setOps bs).raw = s.raw := rfl
@[simp] theorem State.setOps_p (s : State) (bs : List Byte) : (s.setOps bs).p = s.p := rfl
@[simp] theorem State.setOps_t (s : State) (bs : List Byte) : (s.setOps bs).t = s.t := rfl
@[simp] theorem State.setOps_fa (s : State) (bs : List Byte) : (s.setOps bs).fa = s.fa := rfl
@[simp] theorem State.setOps_fb (s : State) (bs : List Byte) : (s.setOps bs).fb = s.fb := rfl
@[simp] theorem State.setOps_seq (s : State) (bs : List Byte) : (s.setOps bs).seq = s.seq := rfl
@[simp] theorem State.setOps_stage (s : State) (bs : List Byte) : (s.setOps bs).stage = s.stage := rfl
@[simp] theorem State.setOps_k (s : State) (bs : List Byte) : (s.setOps bs).k = s.k := rfl
@[simp] theorem State.setOps_subst (s : State) (bs : List Byte) : (s.setOps bs).subst = s.subst := rfl
@[simp] theorem State.setOps_ops (s : State) (bs : List Byte) : (s.setOps bs).ops = bs := rfl
@[simp] theorem State.setOps_inputs (s : State) (bs : List Byte) : (s.setOps bs).inputs = s.inputs := rfl

@[simp] theorem State.reportSubst_raw (s : State) (f : Field) : (s.reportSubst f).raw = s.raw := rfl
@[simp] theorem State.reportSubst_p (s : State) (f : Field) : (s.reportSubst f).p = s.p := rfl
@[simp] theorem State.reportSubst_t (s : State) (f : Field) : (s.reportSubst f).t = s.t := rfl
@[simp] theorem State.reportSubst_fa (s : State) (f : Field) : (s.reportSubst f).fa = s.fa := rfl
@[simp] theorem State.reportSubst_fb (s : State) (f : Field) : (s.reportSubst f).fb = s.fb := rfl
@[simp] theorem State.reportSubst_seq (s : State) (f : Field) : (s.reportSubst f).seq = s.seq := rfl
@[simp] theorem State.reportSubst_stage (s : State) (f : Field) : (s.reportSubst f).stage = s.stage := rfl
@[simp] theorem State.reportSubst_k (s : State) (f : Field) : (s.reportSubst f).k = s.k := rfl
@[simp] theorem State.reportSubst_subst (s : State) (f : Field) : (s.reportSubst f).subst = s.subst.map fun w => w ||| (1#9 <<< f.slot) := rfl
@[simp] theorem State.reportSubst_ops (s : State) (f : Field) : (s.reportSubst f).ops = s.ops := rfl
@[simp] theorem State.reportSubst_inputs (s : State) (f : Field) : (s.reportSubst f).inputs = s.inputs := rfl

@[simp] theorem State.clearSubst_raw (s : State) : s.clearSubst.raw = s.raw := rfl
@[simp] theorem State.clearSubst_p (s : State) : s.clearSubst.p = s.p := rfl
@[simp] theorem State.clearSubst_t (s : State) : s.clearSubst.t = s.t := rfl
@[simp] theorem State.clearSubst_fa (s : State) : s.clearSubst.fa = s.fa := rfl
@[simp] theorem State.clearSubst_fb (s : State) : s.clearSubst.fb = s.fb := rfl
@[simp] theorem State.clearSubst_seq (s : State) : s.clearSubst.seq = s.seq := rfl
@[simp] theorem State.clearSubst_stage (s : State) : s.clearSubst.stage = s.stage := rfl
@[simp] theorem State.clearSubst_k (s : State) : s.clearSubst.k = s.k := rfl
@[simp] theorem State.clearSubst_subst (s : State) : s.clearSubst.subst = s.subst.map fun _ => 0 := rfl
@[simp] theorem State.clearSubst_ops (s : State) : s.clearSubst.ops = s.ops := rfl
@[simp] theorem State.clearSubst_inputs (s : State) : s.clearSubst.inputs = s.inputs := rfl

@[simp] theorem State.storeByteA_raw (s : State) (i : Nat) (v : Byte) : (s.storeByte .A i v).raw = s.raw := rfl
@[simp] theorem State.storeByteA_p (s : State) (i : Nat) (v : Byte) : (s.storeByte .A i v).p = s.p := rfl
@[simp] theorem State.storeByteA_t (s : State) (i : Nat) (v : Byte) : (s.storeByte .A i v).t = s.t := rfl
@[simp] theorem State.storeByteA_fa (s : State) (i : Nat) (v : Byte) : (s.storeByte .A i v).fa = Memory.set s.fa i v := rfl
@[simp] theorem State.storeByteA_fb (s : State) (i : Nat) (v : Byte) : (s.storeByte .A i v).fb = s.fb := rfl
@[simp] theorem State.storeByteA_seq (s : State) (i : Nat) (v : Byte) : (s.storeByte .A i v).seq = s.seq := rfl
@[simp] theorem State.storeByteA_stage (s : State) (i : Nat) (v : Byte) : (s.storeByte .A i v).stage = s.stage := rfl
@[simp] theorem State.storeByteA_k (s : State) (i : Nat) (v : Byte) : (s.storeByte .A i v).k = s.k := rfl
@[simp] theorem State.storeByteA_subst (s : State) (i : Nat) (v : Byte) : (s.storeByte .A i v).subst = s.subst := rfl
@[simp] theorem State.storeByteA_ops (s : State) (i : Nat) (v : Byte) : (s.storeByte .A i v).ops = s.ops := rfl
@[simp] theorem State.storeByteA_inputs (s : State) (i : Nat) (v : Byte) : (s.storeByte .A i v).inputs = s.inputs := rfl

@[simp] theorem State.storeByteB_raw (s : State) (i : Nat) (v : Byte) : (s.storeByte .B i v).raw = s.raw := rfl
@[simp] theorem State.storeByteB_p (s : State) (i : Nat) (v : Byte) : (s.storeByte .B i v).p = s.p := rfl
@[simp] theorem State.storeByteB_t (s : State) (i : Nat) (v : Byte) : (s.storeByte .B i v).t = s.t := rfl
@[simp] theorem State.storeByteB_fa (s : State) (i : Nat) (v : Byte) : (s.storeByte .B i v).fa = s.fa := rfl
@[simp] theorem State.storeByteB_fb (s : State) (i : Nat) (v : Byte) : (s.storeByte .B i v).fb = Memory.set s.fb i v := rfl
@[simp] theorem State.storeByteB_seq (s : State) (i : Nat) (v : Byte) : (s.storeByte .B i v).seq = s.seq := rfl
@[simp] theorem State.storeByteB_stage (s : State) (i : Nat) (v : Byte) : (s.storeByte .B i v).stage = s.stage := rfl
@[simp] theorem State.storeByteB_k (s : State) (i : Nat) (v : Byte) : (s.storeByte .B i v).k = s.k := rfl
@[simp] theorem State.storeByteB_subst (s : State) (i : Nat) (v : Byte) : (s.storeByte .B i v).subst = s.subst := rfl
@[simp] theorem State.storeByteB_ops (s : State) (i : Nat) (v : Byte) : (s.storeByte .B i v).ops = s.ops := rfl
@[simp] theorem State.storeByteB_inputs (s : State) (i : Nat) (v : Byte) : (s.storeByte .B i v).inputs = s.inputs := rfl

@[simp] theorem State.frame_A (s : State) : s.frame .A = s.fa := rfl
@[simp] theorem State.frame_B (s : State) : s.frame .B = s.fb := rfl
@[simp] theorem State.storeBytes_nil (s : State) (f : FrameName) (i : Nat) : s.storeBytes f i [] = s := rfl
@[simp] theorem State.storeBytes_cons (s : State) (f : FrameName) (i : Nat) (v : Byte) (vs : List Byte) :
    s.storeBytes f i (v :: vs) = (s.storeByte f i v).storeBytes f (i + 1) vs := rfl

end Sys2Proof.Machine
end

