-- ==== Sys2Proof/Laws/Ops.lean ====
section
/-! SUPPORT. What the shared operations do, once each: storing bytes, emitting entries, normalizing a slot. -/

namespace Sys2Proof.Machine

/-! ### Storing bytes -/

@[simp] theorem State.storeByte_raw (s : State) (f : FrameName) (i : Nat) (v : Byte) :
    (s.storeByte f i v).raw = s.raw := by cases f <;> rfl
@[simp] theorem State.storeByte_p (s : State) (f : FrameName) (i : Nat) (v : Byte) :
    (s.storeByte f i v).p = s.p := by cases f <;> rfl
@[simp] theorem State.storeByte_t (s : State) (f : FrameName) (i : Nat) (v : Byte) :
    (s.storeByte f i v).t = s.t := by cases f <;> rfl
@[simp] theorem State.storeByte_seq (s : State) (f : FrameName) (i : Nat) (v : Byte) :
    (s.storeByte f i v).seq = s.seq := by cases f <;> rfl
@[simp] theorem State.storeByte_stage (s : State) (f : FrameName) (i : Nat) (v : Byte) :
    (s.storeByte f i v).stage = s.stage := by cases f <;> rfl
@[simp] theorem State.storeByte_k (s : State) (f : FrameName) (i : Nat) (v : Byte) :
    (s.storeByte f i v).k = s.k := by cases f <;> rfl
@[simp] theorem State.storeByte_subst (s : State) (f : FrameName) (i : Nat) (v : Byte) :
    (s.storeByte f i v).subst = s.subst := by cases f <;> rfl
@[simp] theorem State.storeByte_ops (s : State) (f : FrameName) (i : Nat) (v : Byte) :
    (s.storeByte f i v).ops = s.ops := by cases f <;> rfl
@[simp] theorem State.storeByte_inputs (s : State) (f : FrameName) (i : Nat) (v : Byte) :
    (s.storeByte f i v).inputs = s.inputs := by cases f <;> rfl

/-- A byte read after a byte write, of the same frame. -/
theorem State.loadByte_storeByte (s : State) (f : FrameName) (i j : Nat) (v : Byte) :
    (s.storeByte f i v).loadByte f j = if i = j then v else s.loadByte f j := by
  cases f <;> exact Memory.get_set _ _ _ _

/-- A byte read after a byte write to the other frame. -/
theorem State.loadByte_storeByte_ne (s : State) (f g : FrameName) (h : f ≠ g) (i j : Nat) (v : Byte) :
    (s.storeByte f i v).loadByte g j = s.loadByte g j := by
  cases f <;> cases g <;> first | exact absurd rfl h | rfl

/-- The state after byte writes to Frame A: only its buffer differs. -/
theorem State.storeBytes_A_eq (s : State) (i : Nat) (vs : List Byte) :
    s.storeBytes .A i vs = { s with fa := (s.storeBytes .A i vs).fa } := by
  induction vs generalizing s i with
  | nil => rfl
  | cons v vs ih => rw [State.storeBytes_cons, ih]; rfl

/-- The state after byte writes to Frame B: only its buffer differs. -/
theorem State.storeBytes_B_eq (s : State) (i : Nat) (vs : List Byte) :
    s.storeBytes .B i vs = { s with fb := (s.storeBytes .B i vs).fb } := by
  induction vs generalizing s i with
  | nil => rfl
  | cons v vs ih => rw [State.storeBytes_cons, ih]; rfl

/-- The bytes of a frame after byte writes to it: the written bytes at their offsets, every other byte as before. -/
theorem State.loadByte_storeBytes (s : State) (f : FrameName) (i j : Nat) (vs : List Byte) :
    (s.storeBytes f i vs).loadByte f j =
      if i ≤ j ∧ j < i + vs.length then vs.getD (j - i) 0 else s.loadByte f j := by
  induction vs generalizing s i with
  | nil => simp
  | cons v vs ih =>
    rw [State.storeBytes_cons, ih, State.loadByte_storeByte]
    rcases Nat.lt_trichotomy i j with h | h | h
    · have h1 : j - i = (j - (i + 1)) + 1 := by omega
      have h2 : (i + 1 ≤ j ∧ j < i + 1 + vs.length) ↔ (i ≤ j ∧ j < i + (v :: vs).length) := by
        simp only [List.length_cons]; omega
      simp only [h2, h1, List.getD_cons_succ]
      split
      · rfl
      · rw [if_neg (by omega)]
    · subst h
      rw [if_neg (by omega), if_pos rfl, if_pos (by simp)]
      simp
    · rw [if_neg (by omega), if_neg (by omega), if_neg (by omega)]

theorem State.loadByte_storeBytes_ne (s : State) (f g : FrameName) (h : f ≠ g) (i j : Nat) (vs : List Byte) :
    (s.storeBytes f i vs).loadByte g j = s.loadByte g j := by
  induction vs generalizing s i with
  | nil => rfl
  | cons v vs ih => rw [State.storeBytes_cons, ih, State.loadByte_storeByte_ne _ _ _ h]

/-- Byte writes inside a frame keep the canonical form of its buffer. -/
theorem State.storeBytes_A_wf (s : State) (i : Nat) (vs : List Byte) (h : i + vs.length ≤ 20)
    (hw : Memory.wf 20 s.fa = true) : Memory.wf 20 (s.storeBytes .A i vs).fa = true := by
  induction vs generalizing s i with
  | nil => exact hw
  | cons v vs ih =>
    simp only [List.length_cons] at h
    exact ih _ _ (by omega) (Memory.set_wf _ _ _ _ (by omega) hw)

theorem State.storeBytes_B_wf (s : State) (i : Nat) (vs : List Byte) (h : i + vs.length ≤ 19)
    (hw : Memory.wf 19 s.fb = true) : Memory.wf 19 (s.storeBytes .B i vs).fb = true := by
  induction vs generalizing s i with
  | nil => exact hw
  | cons v vs ih =>
    simp only [List.length_cons] at h
    exact ih _ _ (by omega) (Memory.set_wf _ _ _ _ (by omega) hw)

theorem State.loadBytes_length (s : State) (f : FrameName) (n : Nat) : (s.loadBytes f n).length = n := by
  simp [State.loadBytes]

/-- A buffer that holds bytes is read back as those bytes. -/
theorem State.loadBytes_of_holds (s : State) (f : FrameName) (bs : List Byte) (n : Nat) (hn : n ≤ bs.length)
    (h : Memory.holds (s.frame f) bs) : s.loadBytes f n = bs.take n := by
  apply List.ext_getElem
  · simp [State.loadBytes_length, hn]
  · intro i h1 h2
    have hi : i < n := by simpa [State.loadBytes_length] using h1
    have := h i (by omega)
    simp only [State.loadBytes, List.getElem_map, List.getElem_range, List.getElem_take, State.loadByte]
    rw [this, List.getD_eq_getElem _ _ (by omega)]

/-! ### Emitting entries -/

/-- What emitting entries does: those for which SEQ has room are appended, K counts them, nothing else changes. -/
theorem State.emitAll_eq (s : State) (ds : List Duration) :
    s.emitAll ds = { s with
      seq := s.seq ++ ds.take (644 - s.k)
      k := s.k + (ds.take (644 - s.k)).length } := by
  induction ds generalizing s with
  | nil => simp [State.emitAll]
  | cons d ds ih =>
    have hstep : s.emitAll (d :: ds) = (s.emit d).emitAll ds := rfl
    rw [hstep, ih]
    unfold State.emit seqLen
    by_cases h : s.k < 644
    · have hk : 644 - s.k = (644 - (s.k + 1)) + 1 := by omega
      rw [if_pos h, hk]
      simp only [List.take_succ_cons, List.append_assoc, List.cons_append, List.nil_append, List.length_cons]
      congr 1
      omega
    · rw [if_neg h]
      simp [Nat.sub_eq_zero_of_le (Nat.le_of_not_lt h)]

/-- The entries all fit: they are appended and K grows by their number. -/
theorem State.emitAll_fits (s : State) (ds : List Duration) (h : s.k + ds.length ≤ 644) :
    s.emitAll ds = { s with seq := s.seq ++ ds, k := s.k + ds.length } := by
  rw [State.emitAll_eq, List.take_of_length_le (by omega)]

@[simp] theorem State.emitAll_nil (s : State) : s.emitAll [] = s := rfl

theorem State.emitAll_append (s : State) (ds es : List Duration) :
    s.emitAll (ds ++ es) = (s.emitAll ds).emitAll es := by
  simp [State.emitAll, List.foldl_append]

/-- EMIT.BIT emits the symbol of the bit. -/
theorem State.emitBit_eq (s : State) (b : Bool) : s.emitBit b = s.emitAll (bitSymbol b) := by
  cases b <;> rfl

theorem State.emitAll_flatMap {α : Type} (s : State) (g : α → List Duration) (xs : List α) :
    xs.foldl (fun s x => s.emitAll (g x)) s = s.emitAll (xs.flatMap g) := by
  induction xs generalizing s with
  | nil => rfl
  | cons x xs ih => simp only [List.foldl_cons, List.flatMap_cons, State.emitAll_append, ih]

/-- EMIT.BYTE emits the symbols of the byte. -/
theorem State.emitByte_eq (s : State) (v : Byte) : s.emitByte v = s.emitAll (byteSymbols v) := by
  simp only [State.emitByte, State.emitBit_eq, byteSymbols]
  exact State.emitAll_flatMap s (fun j => bitSymbol (v.getLsbD j)) (List.range 8)

theorem State.emitAll_loadByte (s : State) (ds : List Duration) (f : FrameName) (i : Nat) :
    (s.emitAll ds).loadByte f i = s.loadByte f i := by
  rw [State.emitAll_eq]
  cases f <;> rfl

theorem State.emitFrame_list (s r : State) (f : FrameName) (is : List Nat)
    (h : ∀ i, s.loadByte f i = r.loadByte f i) :
    is.foldl (fun s i => s.emitByte (s.loadByte f i)) s = s.emitAll (is.flatMap fun i => byteSymbols (r.loadByte f i)) := by
  induction is generalizing s with
  | nil => rfl
  | cons i is ih =>
    rw [List.foldl_cons, List.flatMap_cons, State.emitByte_eq, ih _ (fun j => by rw [State.emitAll_loadByte, h j]), h i, State.emitAll_append]

/-- EMIT.FRAME emits the symbols of the first `n` bytes of the frame. -/
theorem State.emitFrame_eq (s : State) (f : FrameName) (n : Nat) :
    s.emitFrame f n = s.emitAll (frameSymbols (s.loadBytes f n)) := by
  unfold State.emitFrame
  rw [State.emitFrame_list s s f _ fun _ => rfl]
  simp [frameSymbols, State.loadBytes, List.flatMap_map]

@[simp] theorem bitSymbol_length (b : Bool) : (bitSymbol b).length = 2 := by cases b <;> rfl

@[simp] theorem byteSymbols_length (v : Byte) : (byteSymbols v).length = 16 := by
  simp [byteSymbols, List.length_flatMap]

@[simp] theorem frameSymbols_length (bs : List Byte) : (frameSymbols bs).length = 16 * bs.length := by
  induction bs with
  | nil => rfl
  | cons v bs ih =>
    have : frameSymbols (v :: bs) = byteSymbols v ++ frameSymbols bs := rfl
    rw [this, List.length_append, ih, byteSymbols_length, List.length_cons]
    omega

/-! ### Normalizing a slot -/

/-- What a NORM operation does: nothing for an absent slot, the value of a valid one, the default and a SUBST bit for
an invalid one. -/
theorem State.normField_cases {α : Type} (s : State) (f : Field) (slot : Slot) (valueOf : Raw → Option α) (dflt : α)
    (write : Command → α → Command) :
    (slot = none ∧ s.normField f slot valueOf dflt write = s) ∨
    (∃ r v, slot = some r ∧ valueOf r = some v ∧ s.normField f slot valueOf dflt write = s.setP (write s.p v)) ∨
    (∃ r, slot = some r ∧ valueOf r = none ∧
      s.normField f slot valueOf dflt write = (s.setP (write s.p dflt)).reportSubst f) := by
  cases slot with
  | none => exact .inl ⟨rfl, rfl⟩
  | some r =>
    cases hv : valueOf r with
    | some v => exact .inr (.inl ⟨r, v, rfl, hv, by simp [State.normField, hv]⟩)
    | none => exact .inr (.inr ⟨r, rfl, hv, by simp [State.normField, hv]⟩)

/-- The state after a NORM operation: only P and SUBST can differ. -/
theorem State.normField_frame {α : Type} (s : State) (f : Field) (slot : Slot) (valueOf : Raw → Option α) (dflt : α)
    (write : Command → α → Command) :
    s.normField f slot valueOf dflt write =
      { s with
        p := (s.normField f slot valueOf dflt write).p
        subst := (s.normField f slot valueOf dflt write).subst } := by
  rcases State.normField_cases s f slot valueOf dflt write with ⟨-, h⟩ | ⟨r, v, -, -, h⟩ | ⟨r, -, -, h⟩ <;>
    rw [h] <;> rfl

end Sys2Proof.Machine
end

