-- ==== Sys2Proof/Laws/Meanings.lean ====
section
/-! SUPPORT. What every operation but ENCODE leaves alone: RAW, STAGE and the model's own fields. -/

namespace Sys2Proof.Machine

/-- The registers that only a start, a reset or an advance writes. -/
def State.SameControl (s t : State) : Prop :=
  t.raw = s.raw ∧ t.stage = s.stage ∧ t.ops = s.ops ∧ t.inputs = s.inputs

theorem State.sameControl_emitAll (s : State) (ds : List Duration) : s.SameControl (s.emitAll ds) := by
  rw [State.emitAll_eq]
  exact ⟨rfl, rfl, rfl, rfl⟩

theorem State.SameControl.trans {s t u : State} (h : s.SameControl t) (g : t.SameControl u) : s.SameControl u :=
  ⟨g.1.trans h.1, g.2.1.trans h.2.1, g.2.2.1.trans h.2.2.1, g.2.2.2.trans h.2.2.2⟩

theorem State.sameControl_storeBytes (s : State) (f : FrameName) (i : Nat) (vs : List Byte) :
    s.SameControl (s.storeBytes f i vs) := by
  cases f
  · rw [State.storeBytes_A_eq]
    exact ⟨rfl, rfl, rfl, rfl⟩
  · rw [State.storeBytes_B_eq]
    exact ⟨rfl, rfl, rfl, rfl⟩

theorem State.sameControl_storeByte (s : State) (f : FrameName) (i : Nat) (v : Byte) :
    s.SameControl (s.storeByte f i v) := State.sameControl_storeBytes s f i [v]

theorem State.sameControl_normField {α : Type} (s : State) (f : Field) (slot : Slot) (valueOf : Raw → Option α)
    (dflt : α) (write : Command → α → Command) : s.SameControl (s.normField f slot valueOf dflt write) := by
  rw [State.normField_frame]
  exact ⟨rfl, rfl, rfl, rfl⟩

theorem State.sameControl_self (s : State) : s.SameControl s := ⟨rfl, rfl, rfl, rfl⟩

theorem State.sameControl_sequence (s : State) : s.SameControl s.sequence := by
  simp only [State.sequence, State.emitFrame_eq]
  exact ((((((show s.SameControl s.clearSeq from ⟨rfl, rfl, rfl, rfl⟩).trans (State.sameControl_emitAll _ _)).trans
    (State.sameControl_emitAll _ _)).trans (State.sameControl_emitAll _ _)).trans (State.sameControl_emitAll _ _)).trans
    (State.sameControl_emitAll _ _)).trans (State.sameControl_emitAll _ _)

theorem State.sameControl_setT (s : State) (w : BitVec 32) : s.SameControl (s.setT w) := ⟨rfl, rfl, rfl, rfl⟩

theorem State.sameControl_buildB (s : State) : s.SameControl s.buildB := by
  unfold State.buildB State.storeWord
  exact (((State.sameControl_storeBytes _ _ _ _).trans (State.sameControl_setT _ _)).trans
    (State.sameControl_storeBytes _ _ _ _)).trans (State.sameControl_storeBytes _ _ _ _)

/-- No operation but ENCODE writes RAW, STAGE or the model's own fields. -/
theorem exec_sameControl (i : Instr) (hi : i ≠ .encode) (s t : State) (h : exec i s = .next t) : s.SameControl t := by
  cases i
  case encode => exact absurd rfl hi
  case loadDefaults => exact Host.Outcome.next.inj h ▸ ⟨rfl, rfl, rfl, rfl⟩
  case normTemperature | normAutotemp | normFan | normSwing | normState | normMode | normOntimer | normOfftimer
      | normStreamer => exact Host.Outcome.next.inj h ▸ State.sameControl_normField _ _ _ _ _ _
  case emitFrame f n =>
    simp only [exec, execEmitFrame] at h
    split at h
    · exact Host.Outcome.next.inj h ▸ State.emitFrame_eq s f n ▸ State.sameControl_emitAll _ _
    · exact nomatch h
  case emitByte v => exact Host.Outcome.next.inj h ▸ State.emitByte_eq s v ▸ State.sameControl_emitAll _ _
  case emitBit b => exact Host.Outcome.next.inj h ▸ State.emitBit_eq s b ▸ State.sameControl_emitAll _ _
  case sequence => exact Host.Outcome.next.inj h ▸ State.sameControl_sequence s
  case emitLeader | emitMarker | emitStop | leader | marker | stop | bit0 | bit1 =>
    exact Host.Outcome.next.inj h ▸ State.sameControl_emitAll _ _
  case fb6Autodry | fb6Coldhot | fb6Fan =>
    refine Host.Outcome.next.inj h ▸ ?_
    split
    · exact State.sameControl_storeByte _ _ _ _
    · exact State.sameControl_self s
  case buildA | fa5to7 | fa9to18 | fb13to14 => exact Host.Outcome.next.inj h ▸ State.sameControl_storeBytes _ _ _ _
  case buildB => exact Host.Outcome.next.inj h ▸ State.sameControl_buildB s
  all_goals exact Host.Outcome.next.inj h ▸ State.sameControl_storeByte _ _ _ _

end Sys2Proof.Machine
end

