-- ==== Sys2Proof/Laws/PerInstr.lean ====
section
/-! SUPPORT. The family RowNumber, one lemma per operation: an operation's word is two bytes, and the second is the
number of a row of the table. -/

namespace Sys2Proof.Laws

/-- The word of an operation is two bytes, the second of them the number of its row, 1 to 56. -/
def RowNumber.Statement (i : Instr) : Prop :=
  ∃ v, encode i = [v, BitVec.ofNat 8 (rowNumber i)] ∧ 1 ≤ rowNumber i ∧ rowNumber i ≤ 56

theorem RowNumber.encode : RowNumber.Statement .encode := ⟨_, rfl, by decide, by decide⟩
theorem RowNumber.loadDefaults : RowNumber.Statement .loadDefaults := ⟨_, rfl, by decide, by decide⟩
theorem RowNumber.normTemperature : RowNumber.Statement .normTemperature := ⟨_, rfl, by decide, by decide⟩
theorem RowNumber.normAutotemp : RowNumber.Statement .normAutotemp := ⟨_, rfl, by decide, by decide⟩
theorem RowNumber.normFan : RowNumber.Statement .normFan := ⟨_, rfl, by decide, by decide⟩
theorem RowNumber.normSwing : RowNumber.Statement .normSwing := ⟨_, rfl, by decide, by decide⟩
theorem RowNumber.normState : RowNumber.Statement .normState := ⟨_, rfl, by decide, by decide⟩
theorem RowNumber.normMode : RowNumber.Statement .normMode := ⟨_, rfl, by decide, by decide⟩
theorem RowNumber.normOntimer : RowNumber.Statement .normOntimer := ⟨_, rfl, by decide, by decide⟩
theorem RowNumber.normOfftimer : RowNumber.Statement .normOfftimer := ⟨_, rfl, by decide, by decide⟩
theorem RowNumber.normStreamer : RowNumber.Statement .normStreamer := ⟨_, rfl, by decide, by decide⟩
theorem RowNumber.buildA : RowNumber.Statement .buildA := ⟨_, rfl, by decide, by decide⟩
theorem RowNumber.buildB : RowNumber.Statement .buildB := ⟨_, rfl, by decide, by decide⟩
theorem RowNumber.csumA : RowNumber.Statement .csumA := ⟨_, rfl, by decide, by decide⟩
theorem RowNumber.csumB : RowNumber.Statement .csumB := ⟨_, rfl, by decide, by decide⟩
theorem RowNumber.emitLeader : RowNumber.Statement .emitLeader := ⟨_, rfl, by decide, by decide⟩
theorem RowNumber.emitMarker : RowNumber.Statement .emitMarker := ⟨_, rfl, by decide, by decide⟩
theorem RowNumber.emitStop : RowNumber.Statement .emitStop := ⟨_, rfl, by decide, by decide⟩
theorem RowNumber.emitBit (b : Bool) : RowNumber.Statement (.emitBit b) := ⟨_, rfl, by simp [rowNumber], by simp [rowNumber]⟩
theorem RowNumber.emitByte (v : Byte) : RowNumber.Statement (.emitByte v) := ⟨_, rfl, by simp [rowNumber], by simp [rowNumber]⟩
theorem RowNumber.emitFrame (f : FrameName) (n : Nat) : RowNumber.Statement (.emitFrame f n) := ⟨_, rfl, by simp [rowNumber], by simp [rowNumber]⟩
theorem RowNumber.sequence : RowNumber.Statement .sequence := ⟨_, rfl, by decide, by decide⟩
theorem RowNumber.fa0 : RowNumber.Statement .fa0 := ⟨_, rfl, by decide, by decide⟩
theorem RowNumber.fa1 : RowNumber.Statement .fa1 := ⟨_, rfl, by decide, by decide⟩
theorem RowNumber.fa2 : RowNumber.Statement .fa2 := ⟨_, rfl, by decide, by decide⟩
theorem RowNumber.fa3 : RowNumber.Statement .fa3 := ⟨_, rfl, by decide, by decide⟩
theorem RowNumber.fa4 : RowNumber.Statement .fa4 := ⟨_, rfl, by decide, by decide⟩
theorem RowNumber.fa5to7 : RowNumber.Statement .fa5to7 := ⟨_, rfl, by decide, by decide⟩
theorem RowNumber.fa8 : RowNumber.Statement .fa8 := ⟨_, rfl, by decide, by decide⟩
theorem RowNumber.fa9to18 : RowNumber.Statement .fa9to18 := ⟨_, rfl, by decide, by decide⟩
theorem RowNumber.fa19 : RowNumber.Statement .fa19 := ⟨_, rfl, by decide, by decide⟩
theorem RowNumber.fb0 : RowNumber.Statement .fb0 := ⟨_, rfl, by decide, by decide⟩
theorem RowNumber.fb1 : RowNumber.Statement .fb1 := ⟨_, rfl, by decide, by decide⟩
theorem RowNumber.fb2 : RowNumber.Statement .fb2 := ⟨_, rfl, by decide, by decide⟩
theorem RowNumber.fb3 : RowNumber.Statement .fb3 := ⟨_, rfl, by decide, by decide⟩
theorem RowNumber.fb4 : RowNumber.Statement .fb4 := ⟨_, rfl, by decide, by decide⟩
theorem RowNumber.fb5 : RowNumber.Statement .fb5 := ⟨_, rfl, by decide, by decide⟩
theorem RowNumber.fb6Autodry : RowNumber.Statement .fb6Autodry := ⟨_, rfl, by decide, by decide⟩
theorem RowNumber.fb6Coldhot : RowNumber.Statement .fb6Coldhot := ⟨_, rfl, by decide, by decide⟩
theorem RowNumber.fb6Fan : RowNumber.Statement .fb6Fan := ⟨_, rfl, by decide, by decide⟩
theorem RowNumber.fb7 : RowNumber.Statement .fb7 := ⟨_, rfl, by decide, by decide⟩
theorem RowNumber.fb8 : RowNumber.Statement .fb8 := ⟨_, rfl, by decide, by decide⟩
theorem RowNumber.fb9 : RowNumber.Statement .fb9 := ⟨_, rfl, by decide, by decide⟩
theorem RowNumber.fb10 : RowNumber.Statement .fb10 := ⟨_, rfl, by decide, by decide⟩
theorem RowNumber.fb11 : RowNumber.Statement .fb11 := ⟨_, rfl, by decide, by decide⟩
theorem RowNumber.fb12 : RowNumber.Statement .fb12 := ⟨_, rfl, by decide, by decide⟩
theorem RowNumber.fb13to14 : RowNumber.Statement .fb13to14 := ⟨_, rfl, by decide, by decide⟩
theorem RowNumber.fb15 : RowNumber.Statement .fb15 := ⟨_, rfl, by decide, by decide⟩
theorem RowNumber.fb16 : RowNumber.Statement .fb16 := ⟨_, rfl, by decide, by decide⟩
theorem RowNumber.fb17 : RowNumber.Statement .fb17 := ⟨_, rfl, by decide, by decide⟩
theorem RowNumber.fb18 : RowNumber.Statement .fb18 := ⟨_, rfl, by decide, by decide⟩
theorem RowNumber.bit0 : RowNumber.Statement .bit0 := ⟨_, rfl, by decide, by decide⟩
theorem RowNumber.bit1 : RowNumber.Statement .bit1 := ⟨_, rfl, by decide, by decide⟩
theorem RowNumber.leader : RowNumber.Statement .leader := ⟨_, rfl, by decide, by decide⟩
theorem RowNumber.marker : RowNumber.Statement .marker := ⟨_, rfl, by decide, by decide⟩
theorem RowNumber.stop : RowNumber.Statement .stop := ⟨_, rfl, by decide, by decide⟩

end Sys2Proof.Laws
end

