-- ==== Sys2Proof/Tests/Slice0.lean ====
section
/-! SUPPORT. Tests: the well-formedness check, the words of every operation, one step of an operation against the
numbers of 95_test_vectors.md, and for each statement with hypotheses a state that meets them. -/

namespace Sys2Proof.Tests

open Sys2Proof Sys2Proof.Machine

/-! ### Helpers -/

/-- What an operation leaves, or the state itself where it stops. -/
def after (i : Instr) (s : State) : State :=
  match exec i s with
  | .next t => t
  | .fault _ => s
  | .refused _ => s

/-- The reset state with these captured slots, and SUBST present. -/
def withRaw (c : PartialCommand) : State := { State.reset with raw := c, subst := some 0 }

/-- The reset state with these property registers. -/
def withP (p : Command) : State := { State.reset with p := p }

/-- The Command of vector V26 (95_test_vectors.md, section 3.6). -/
def v26 : Command :=
  { Command.defaults with
    state := true, mode := .dry, autotemp := ⟨-5, by decide⟩, fan := .nice, swing := true,
    ontimer := ⟨7, by decide⟩, offtimer := ⟨1, by decide⟩, streamer := true }

/-- The Command of vector V28. -/
def v28 : Command :=
  { Command.defaults with
    state := true, mode := .cold, temperature := ⟨22, by decide⟩, fan := .speed ⟨3, by decide⟩, swing := true }

/-- Inputs that start an operation with these slots. -/
def startPins (c : PartialCommand) : Pins := { Pins.idle with start := true, slots := c }

/-- What the decoder reads, without the reason of a refusal. -/
def read (bs : List Byte) : Option (Instr × List Byte) := (decode bs).toOption

/-! ### Well-formed operations and words -/

theorem test_wf_refuses_frame_A_with_19 : (Instr.emitFrame .A 19).wf = false := by decide

theorem test_wf_refuses_frame_B_with_20 : (Instr.emitFrame .B 20).wf = false := by decide

/-- The slot number of a NORM operation is its operand byte (R92: "the slot number it serves"). -/
theorem test_decode_normalizer :
    [[0, 2], [0, 3], [1, 4], [2, 5], [3, 6], [4, 7], [5, 8], [6, 9], [7, 10], [8, 11]].map read =
      [Instr.loadDefaults, .normTemperature, .normAutotemp, .normFan, .normSwing, .normState, .normMode, .normOntimer,
        .normOfftimer, .normStreamer].map fun i => some (i, []) := by decide

theorem test_decode_pipeline :
    [[0, 1], [0, 12], [0, 13], [0, 14], [0, 15], [0, 16], [0, 17], [0, 18], [0, 22]].map read =
      [Instr.encode, .buildA, .buildB, .csumA, .csumB, .emitLeader, .emitMarker, .emitStop, .sequence].map
        fun i => some (i, []) := by decide

theorem test_decode_emit_operands :
    [[1, 19], [0, 19], [0xDA, 20], [0x14, 21], [0x33, 21]].map read =
      [Instr.emitBit true, .emitBit false, .emitByte 0xDA, .emitFrame .A 20, .emitFrame .B 19].map
        fun i => some (i, []) := by decide

/-- The constant bits of R61, bit 7 first. -/
theorem test_decode_frame_A :
    [[0b00010001, 23], [0b11011010, 24], [0b00100111, 25], [0, 26], [0b00000001, 27], [0, 28], [0b00010000, 29],
      [0, 30], [0b10101010, 31]].map read =
      [Instr.fa0, .fa1, .fa2, .fa3, .fa4, .fa5to7, .fa8, .fa9to18, .fa19].map fun i => some (i, []) := by decide

/-- The constant bits of R70, bit 7 first. -/
theorem test_decode_frame_B :
    [[0b00010001, 32], [0b11011010, 33], [0b00100111, 34], [0, 35], [0, 36], [0b01101111, 37], [0b11010110, 38],
      [0b00111100, 39], [0, 40], [0b10000000, 41], [0b10101111, 42], [0, 43], [0b11111100, 44], [0b11000111, 45],
      [0b01111111, 46], [0, 47], [0b11000001, 48], [0b10010000, 49], [0, 50], [0b10101010, 51]].map read =
      [Instr.fb0, .fb1, .fb2, .fb3, .fb4, .fb5, .fb6Autodry, .fb6Coldhot, .fb6Fan, .fb7, .fb8, .fb9, .fb10, .fb11,
        .fb12, .fb13to14, .fb15, .fb16, .fb17, .fb18].map fun i => some (i, []) := by decide

theorem test_decode_symbols :
    [[0, 52], [0, 53], [0, 54], [0, 55], [0, 56]].map read =
      [Instr.bit0, .bit1, .leader, .marker, .stop].map fun i => some (i, []) := by decide

/-- Refused: too short, no such row, a wrong slot number, a frame length that is not the frame's, lost constant bits, a
byte that fits no row. -/
theorem test_decode_refuses :
    [[], [0x11], [0, 57], [3, 3], [0x13, 21], [0x12, 23], [0x55, 49], [0x95, 0]].map read = List.replicate 8 none := by
  decide

/-- A byte without a row number: the row with the most constant bits, the earliest among equals (log entry 2). -/
theorem test_decode_table_bytes :
    [0x11, 0xDA, 0x27, 0x01, 0x10, 0xC1, 0x90, 0xDE, 0x00].map (decodeTableWord 8) =
      [some .fa0, some .fa1, some .fa2, some .fa4, some .fa8, some .fb15, some .fb16, some .fb6Autodry, some .fa3] := by
  decide

/-! ### Operations, against 95_test_vectors.md -/

theorem test_loadDefaults : (after .loadDefaults (withP v26)).p = Command.defaults := by decide

/-- Section 2: 31 gives 25 and SUBST[0]. -/
theorem test_normTemperature_31 :
    (fun t : State => (t.p.temperature.val, t.subst))
      (after .normTemperature (withRaw { PartialCommand.empty with temperature := some (.int 31) })) =
      (25, some 0b000000001) := by decide

theorem test_normTemperature_30 :
    (after .normTemperature (withRaw { PartialCommand.empty with temperature := some (.int 30) })).p.temperature.val =
      30 := by decide

theorem test_normAutotemp_minus5 :
    (after .normAutotemp (withRaw { PartialCommand.empty with autotemp := some (.int (-5)) })).p.autotemp.val = -5 := by
  decide

theorem test_normFan_nice :
    (after .normFan (withRaw { PartialCommand.empty with fan := some (.sym "nice") })).p.fan = .nice := by decide

/-- Section 2: the string "3" is no integer. -/
theorem test_normFan_string :
    (fun t : State => (t.p.fan, t.subst)) (after .normFan (withRaw { PartialCommand.empty with fan := some (.sym "3") })) =
      (.auto, some 0b000000100) := by decide

theorem test_normSwing_one :
    (fun t : State => (t.p.swing, t.subst)) (after .normSwing (withRaw { PartialCommand.empty with swing := some (.int 1) })) =
      (false, some 0b000001000) := by decide

theorem test_normState_true :
    (after .normState (withRaw { PartialCommand.empty with state := some (.bool true) })).p.state = true := by decide

theorem test_normMode_hot :
    (after .normMode (withRaw { PartialCommand.empty with mode := some (.sym "hot") })).p.mode = .hot := by decide

theorem test_normMode_Cold :
    (fun t : State => (t.p.mode, t.subst)) (after .normMode (withRaw { PartialCommand.empty with mode := some (.sym "Cold") })) =
      (.auto, some 0b000100000) := by decide

theorem test_normOntimer_12 :
    (after .normOntimer (withRaw { PartialCommand.empty with ontimer := some (.int 12) })).p.ontimer.val = 12 := by decide

theorem test_normOfftimer_13 :
    (fun t : State => (t.p.offtimer.val, t.subst))
      (after .normOfftimer (withRaw { PartialCommand.empty with offtimer := some (.int 13) })) =
      (0, some 0b010000000) := by decide

theorem test_normStreamer_null :
    (fun t : State => (t.p.streamer, t.subst))
      (after .normStreamer (withRaw { PartialCommand.empty with streamer := some .other })) =
      (false, some 0b100000000) := by decide

/-- Section 3.1, fan "nice": the bytes of BUILD.A, and the checksum 35. -/
theorem test_buildA_nice :
    (after .buildA (withP v26)).loadBytes .A 20 =
      [0x11, 0xDA, 0x27, 0, 1, 0, 0, 0, 0x10, 0, 0, 0, 0, 0, 0, 0, 0, 0, 0, 0] := by decide

theorem test_csumA_nice : (after .csumA (after .buildA (withP v26))).loadByte .A 19 = 0x23 := by decide

/-- V26: the bytes of BUILD.B, T, and the checksum 255. -/
theorem test_buildB_v26 :
    (fun t : State => (t.loadBytes .B 19, t.t)) (after .buildB (withP v26)) =
      ([0x11, 0xDA, 0x27, 0, 0, 0x2F, 0xD6, 0x80, 0xAF, 0, 0xA4, 0xC1, 0x03, 0, 0, 0xC1, 0x90, 0, 0], 0x03C1A400) := by
  decide

theorem test_csumB_v26 : (after .csumB (after .buildB (withP v26))).loadByte .B 18 = 0xFF := by decide

/-- V1, the source's own example: the bytes of BUILD.B with all defaults, and the checksum 161. -/
theorem test_buildB_defaults :
    (after .csumB (after .buildB State.reset)).loadBytes .B 19 =
      [0x11, 0xDA, 0x27, 0, 0, 0x08, 0xC0, 0x80, 0xA0, 0, 0, 0x06, 0x60, 0, 0, 0xC1, 0x80, 0, 0xA1] := by decide

theorem test_fa_bytes :
    (after .fa0 (after .fa1 (after .fa2 (after .fa4 State.reset)))).fa = [(0, 17), (1, 218), (2, 39), (4, 1)] := by decide

theorem test_fa8_not_nice : (after .fa8 (after .fa8 (withP v26) |>.setP v28)).fa = [] := by decide

theorem test_fa19_sum : (after .fa19 { State.reset with fa := [(0, 200), (18, 100)] }).loadByte .A 19 = 44 := by decide

theorem test_fb5_v28 : (after .fb5 (withP v28)).fb = [(5, 0x39)] := by decide

theorem test_fb6_v28 :
    ((after .fb6Coldhot (withP v28)).fb, (after .fb6Autodry (withP v28)).fb, (after .fb6Fan (withP v28)).fb) =
      ([(6, 0x2C)], [], []) := by decide

theorem test_fb6_v26 :
    ((after .fb6Coldhot (withP v26)).fb, (after .fb6Autodry (withP v26)).fb, (after .fb7 (withP v26)).fb) =
      ([], [(6, 0xD6)], [(7, 0x80)]) := by decide

theorem test_fb8 : ((after .fb8 (withP v28)).fb, (after .fb8 (withP v26)).fb) = ([(8, 0x5F)], [(8, 0xAF)]) := by decide

/-- R134: T = 0x2D007800 gives 0x00, 0x78, 0x00, 0x2D. -/
theorem test_timer_bytes :
    (after .fb9 (after .fb10 (after .fb11 (after .fb12 { State.reset with t := 0x2D007800 })))).fb =
      [(10, 0x78), (12, 0x2D)] := by decide

theorem test_fb16 : ((after .fb16 (withP v26)).fb, (after .fb16 (withP v28)).fb) = ([(16, 0x90)], [(16, 0x80)]) := by decide

/-- Section 4.1: 0xDA. -/
theorem test_emitByte_DA :
    (after (.emitByte 0xDA) State.reset).seq =
      [440, 440, 440, 1300, 440, 440, 440, 1300, 440, 1300, 440, 440, 440, 1300, 440, 1300] := by decide

theorem test_emitBit : ((after (.emitBit true) State.reset).seq, (after .bit0 State.reset).seq) =
    ([440, 1300], [440, 440]) := by decide

theorem test_marker : ((after .emitMarker State.reset).seq, (after .marker State.reset).k) =
    ([440, 25250, 3450, 1750], 4) := by decide

theorem test_leader : ((after .emitLeader State.reset).k, (after .leader State.reset).seq) =
    (10, List.replicate 10 440) := by decide

theorem test_stop_at_643 : ((after .emitStop { State.reset with k := 643 }).seq, (after .stop { State.reset with k := 644 }).k) =
    ([440], 644) := by decide

/-- Section 4.2 and 4.3: indices of the all-defaults sequence. -/
theorem test_entryAt :
    (fun t : State => [9, 11, 12, 13, 15, 17, 333, 335, 337, 339, 425, 641, 643].map t.entryAt)
      (after .csumB (after .csumA (after .buildB (after .buildA State.reset)))) =
      [440, 25250, 3450, 1750, 1300, 440, 440, 25250, 1750, 1300, 1300, 1300, 440] := by decide

/-- R182 and E1: the sequence of the empty command has 644 entries and 43 of them are 1300. -/
theorem test_encodeFunction_empty :
    ((encodeFunction PartialCommand.empty).length, ((encodeFunction PartialCommand.empty).filter (· == 1300)).length) =
      (644, 43) := by decide +kernel

/-- Program P4 (every field invalid): the normalized command is that of the empty command. -/
theorem test_all_invalid :
    normalizedCommand ⟨some (.int 31), some (.int (-6)), some (.int 6), some (.int 1), some (.sym "on"),
      some (.sym "heat"), some (.int 13), some (.int (-1)), some .other⟩ = Command.defaults := by decide

/-- Section 2, unrecognized names; two keys that fold to one name. -/
theorem test_presenter :
    ((presentCommand false [("temp", .int 22), ("Temperature", .int 22)]).toOption,
      (presentCommand true [("Temperature", .int 22)]).toOption,
      (presentCommand true [("Fan", .int 1), ("fan", .int 2)]).toOption) =
      (some PartialCommand.empty, some { PartialCommand.empty with temperature := some (.int 22) }, none) := by decide

/-- P2: the operation ENCODE on a reset block, by its debug taps. -/
theorem test_encode_p2 :
    (fun t : State => (t.stage, t.k, t.loadBytes .B 19))
      (after .encode { State.reset with inputs := [startPins { PartialCommand.empty with
        state := some (.bool true), mode := some (.sym "cold"), temperature := some (.int 22), fan := some (.int 3),
        swing := some (.bool true) }] }) =
      (.done, 644, [0x11, 0xDA, 0x27, 0, 0, 0x39, 0x2C, 0, 0x5F, 0, 0, 0x06, 0x60, 0, 0, 0xC1, 0x80, 0, 0x7D]) := by
  decide +kernel

/-- The host's way in: the placed word is the next operation, and it runs first after reset. -/
theorem test_step_runs_placed_word :
    step (State.reset.withFetchWord 8 0xC1) = .next { State.reset with fb := [(15, 0xC1)] } := rfl

theorem test_step_runs_placed_operation :
    step (State.reset.withFetchWord 16 0x3700) = .next (State.reset.emitAll symMarker) := rfl

theorem test_step_refuses_no_word :
    step (State.reset.withFetchWord 16 0x3900) = .refused (.undecodable (.unknownRow 57)) := rfl

/-- R185: an accepted start, and a start presented while BUSY. -/
theorem test_start_accepted :
    (step { State.reset with inputs := [startPins PartialCommand.empty] }) =
      .next { State.reset with stage := .normalize, ops := programBytes normalizeProgram } := rfl

/-! ### States that meet the statements' hypotheses -/

/-- A reset block to which the caller presents these pins. -/
def driven (q : Pins) : State := { State.reset with inputs := [q] }

/-- A block whose frames are those of an all-defaults operation, in this stage, with this K, this SEQ and this
consumer. -/
def framed (g : Stage) (k : Nat) (q : List Duration) (ready : Bool) : State :=
  { (after .csumB (after .csumA (after .buildB (after .buildA State.reset)))) with
    stage := g, k := k, seq := q, inputs := [{ Pins.idle with outReady := ready }] }

/-- The block in EMIT at index `k`. -/
def emitting (k : Nat) (ready : Bool) : State :=
  framed .emit k ((encodeFunction PartialCommand.empty).take k) ready

/-- The block in DONE. -/
def finished : State := framed .done 644 (encodeFunction PartialCommand.empty) true

theorem witness_ResetInputReachesTheTableValues : (driven { Pins.idle with reset := true }).pins.reset = true := rfl

theorem witness_StartCapturesTheSlots_start :
    let s := driven (startPins PartialCommand.empty)
    s.pins.reset = false ∧ s.ops = [] ∧ (s.stage = .idle ∨ s.stage = .done) ∧ s.pins.start = true := by decide

theorem witness_StartCapturesTheSlots_busy :
    let s := { State.reset with stage := .build }
    s.busy = true ∧ s.pins.reset = false ∧ ∃ t, step s = .next t := ⟨rfl, rfl, _, rfl⟩

theorem witness_StartWhileBusyHasNoEffect_waiting :
    let s := State.reset.setStage .done
    s.pins.reset = false ∧ s.ops = [] ∧ (s.stage = .idle ∨ s.stage = .done) ∧ s.pins.start = false := by decide

theorem witness_StartWhileBusyHasNoEffect_busy :
    (State.reset.setStage .checksum).busy = true ∧
      (startPins PartialCommand.empty).reset = Pins.idle.reset ∧
      (startPins PartialCommand.empty).outReady = Pins.idle.outReady := by decide

theorem witness_OutputWordsAreOfferedUntilTaken_last_ready :
    let s := emitting 643 true
    s.pins.reset = false ∧ s.ops = [] ∧ s.stage = .emit ∧ s.k < 644 ∧ s.pins.outReady = true := by
  exact ⟨rfl, rfl, rfl, by decide, rfl⟩

theorem witness_OutputWordsAreOfferedUntilTaken_first_stalled :
    let s := emitting 0 false
    s.pins.reset = false ∧ s.ops = [] ∧ s.stage = .emit ∧ s.k < 644 ∧ s.pins.outReady = false := by
  exact ⟨rfl, rfl, rfl, by decide, rfl⟩

theorem witness_StepPerformsTheDecodedOperation :
    let s := { State.reset with ops := [0x33, 21, 0, 1] }
    s.pins.reset = false ∧ decode s.ops = .ok (.emitFrame .B 19, [0, 1]) ∧ (Instr.emitFrame .B 19).wf = true :=
  ⟨rfl, rfl, rfl⟩

theorem framed_fa (g : Stage) (k : Nat) (q : List Duration) (ready : Bool) :
    ∀ i, i < 20 → Memory.get (framed g k q ready).fa i = (frameA Command.defaults).getD i 0 := by
  have h : ∀ i, i < 20 → Memory.get (framed .emit 0 [] true).fa i = (frameA Command.defaults).getD i 0 := by decide
  exact h

theorem framed_fb (g : Stage) (k : Nat) (q : List Duration) (ready : Bool) :
    ∀ i, i < 19 → Memory.get (framed g k q ready).fb i = (frameB Command.defaults).getD i 0 := by
  have h : ∀ i, i < 19 → Memory.get (framed .emit 0 [] true).fb i = (frameB Command.defaults).getD i 0 := by decide
  exact h

/-- The frames of an all-defaults operation are ready in these states. -/
theorem framed_framesReady (g : Stage) (k : Nat) (q : List Duration) (ready : Bool) :
    (framed g k q ready).FramesReady :=
  ⟨rfl, rfl, rfl, framed_fa g k q ready, framed_fb g k q ready⟩

theorem witness_PipelineInv_emit (ready : Bool) : (emitting 643 ready).PipelineInv :=
  ⟨framed_framesReady _ _ _ ready, by show 643 < 644; decide, rfl⟩

theorem witness_PipelineInv_done : finished.PipelineInv := ⟨framed_framesReady _ _ _ true, rfl, rfl⟩

theorem witness_PipelineInv_build :
    { State.reset with stage := .build, ops := programBytes buildProgram }.PipelineInv :=
  ⟨rfl, 0, by decide, rfl, fun h => absurd h (by decide), fun h => absurd h (by decide)⟩

theorem witness_PipelineInv_normalize :
    { State.reset with stage := .normalize, ops := programBytes normalizeProgram }.PipelineInv :=
  ⟨0, by decide, rfl, fun h => absurd h (by decide)⟩

theorem witness_StagesAdvanceInOrder :
    (emitting 643 true).PipelineInv ∧ (emitting 643 true).pins.reset = false ∧
      ∃ t, step (emitting 643 true) = .next t :=
  ⟨witness_PipelineInv_emit true, rfl, _, rfl⟩

theorem witness_DecodeInvertsEncode : (Instr.emitFrame .A 20).wf = true := rfl

theorem witness_DecodedOperationsAreWellFormed : ∃ i rest, decode [0x14, 21, 7] = .ok (i, rest) := ⟨_, _, rfl⟩

theorem witness_SlotEncodingKeepsTheCommand : 6 ≤ 6 ∧ 6 < 7 := by decide

/-- R188, its table: an integer, a boolean whose other bits are ignored, a symbol, an ignored `val`. -/
theorem test_slotOfBits :
    (slotOfBits true 0 0b111011#6, slotOfBits true 1 0b111110#6, slotOfBits true 2 0b000101#6, slotOfBits true 3 5#6) =
      (some (.int (-5)), some (.bool false), some (.sym "quiet"), some .other) := by decide

theorem witness_PresenterFillsSlotsByName :
    "Fan" ∉ ["temperature", "autotemp", "fan", "swing", "state", "mode", "ontimer", "offtimer", "streamer"] ∧
    fieldNamed (foldedName false "temp") = none ∧ fieldNamed (foldedName true "FAN") = some .fan ∧
      PartialCommand.empty.get .fan = none ∧
      (PartialCommand.empty.set .fan (some .other)).get .fan = some .other := by decide

theorem witness_NormTemperature_bounds :
    (withRaw { PartialCommand.empty with temperature := some (.int 14) }).raw.temperature = some (.int 14) ∧
      (14 : Int) ≤ 14 ∧ (14 : Int) ≤ 30 ∧
      (∀ z, Raw.int 13 = .int z → z < 14 ∨ 30 < z) ∧ State.reset.raw.temperature = none :=
  ⟨rfl, by decide, by decide, by rintro z ⟨⟩; decide, rfl⟩

theorem witness_NormAutotemp_bounds :
    (withRaw { PartialCommand.empty with autotemp := some (.int 5) }).raw.autotemp = some (.int 5) ∧
      (-5 : Int) ≤ 5 ∧ (∀ z, Raw.int 6 = .int z → z < -5 ∨ 5 < z) ∧ State.reset.raw.autotemp = none :=
  ⟨rfl, by decide, by rintro z ⟨⟩; decide, rfl⟩

theorem witness_NormFan_bounds :
    (withRaw { PartialCommand.empty with fan := some (.int 5) }).raw.fan = some (.int 5) ∧ (5 : Int) ≤ 5 ∧
      (withRaw { PartialCommand.empty with fan := some (.sym "quiet") }).raw.fan = some (.sym "quiet") ∧
      (∀ z, Raw.int 6 = .int z → z < 1 ∨ 5 < z) ∧ Raw.int 6 ≠ .sym "nice" ∧ State.reset.raw.fan = none :=
  ⟨rfl, by decide, rfl, by rintro z ⟨⟩; decide, by decide, rfl⟩

theorem witness_NormBooleans_classes :
    (withRaw { PartialCommand.empty with swing := some (.bool true) }).raw.swing = some (.bool true) ∧
      (∀ b, Raw.int 1 ≠ .bool b) ∧ State.reset.raw.state = none ∧
      (withRaw { PartialCommand.empty with streamer := some .other }).raw.streamer = some .other :=
  ⟨rfl, by decide, rfl, rfl⟩

theorem witness_NormMode_symbols :
    (withRaw { PartialCommand.empty with mode := some (.sym "dry") }).raw.mode = some (.sym "dry") ∧
      (∀ x ∈ ["auto", "dry", "cold", "hot", "fan"], Raw.sym "heat" ≠ .sym x) ∧ State.reset.raw.mode = none := by decide

theorem witness_NormTimers_bounds :
    (withRaw { PartialCommand.empty with ontimer := some (.int 0) }).raw.ontimer = some (.int 0) ∧ (0 : Int) ≤ 12 ∧
      (∀ z, Raw.int 13 = .int z → z < 0 ∨ 12 < z) ∧ State.reset.raw.offtimer = none :=
  ⟨rfl, by decide, by rintro z ⟨⟩; decide, rfl⟩

theorem witness_InvalidSlotActsAsAbsent :
    let s := driven (startPins (PartialCommand.empty.set .temperature (some (.int 31))))
    let u := driven (startPins PartialCommand.empty)
    s.busy = false ∧ u.busy = false ∧ ¬ inDomain .temperature (.int 31) ∧
      s.pins.slots.get .temperature = some (.int 31) ∧ u.pins.slots = s.pins.slots.set .temperature none :=
  ⟨rfl, rfl, by rintro ⟨z, ⟨⟩, _, h⟩; exact absurd h (by decide), rfl, rfl⟩

theorem witness_SubstReportsTheInvalidSlots :
    (withRaw PartialCommand.empty).busy = false ∧ (withRaw PartialCommand.empty).subst = some 0 ∧
      State.reset.subst = none := by decide

theorem witness_SubstIsReadByNoOperation : ∃ t, exec .normFan (withRaw PartialCommand.empty) = .next t := ⟨_, rfl⟩

theorem witness_TemperatureByteForms :
    (withP v26).p.mode = .dry ∧ (withP v28).p.mode = .cold ∧ (withP { v28 with mode := .fan }).p.mode = .fan ∧
      ¬ ((withP v28).p.mode = .auto ∨ (withP v28).p.mode = .dry) := by decide

/-- Enabled timers, at both ends of their range. -/
theorem witness_BuilderValuesLieInTheirRanges :
    let p := { v26 with ontimer := ⟨1, by decide⟩, offtimer := ⟨12, by decide⟩ }
    0 < p.ontimer.val ∧ 0 < p.offtimer.val := by decide

theorem witness_FramesCarryTheirChecksums :
    (emitting 643 true).PipelineInv ∧ ((emitting 643 true).stage = .emit ∨ (emitting 643 true).stage = .done) ∧
      State.reset.busy = false :=
  ⟨witness_PipelineInv_emit true, .inl rfl, rfl⟩

theorem witness_FrameATakesTwoValues :
    (driven (startPins { PartialCommand.empty with fan := some (.sym "nice") })).busy = false := rfl

theorem witness_emissions_at_their_last_index :
    { State.reset with k := 634 }.k ≤ 634 ∧ { State.reset with k := 640 }.k ≤ 640 ∧
      { State.reset with k := 642 }.k ≤ 642 ∧ { State.reset with k := 628 }.k ≤ 628 := by decide

theorem witness_FrameIsEmittedInOffsetOrder :
    { State.reset with k := 324 }.k + 16 * FrameName.A.length ≤ 644 ∧
      { State.reset with k := 340 }.k + 16 * FrameName.B.length ≤ 644 := by decide

theorem witness_SequenceEntryByIndex :
    643 < 644 ∧ 0 < 644 ∧ (emitting 643 true).stage = .emit ∧ (emitting 643 true).k = 643 :=
  ⟨by decide, by decide, rfl, rfl⟩

/-- R212, R221: stages in which the taps show, one in which they do not, and a reset. -/
theorem witness_EncodeIsTheFunctionOfItsSlots_taps :
    (emitting 643 true).PipelineInv ∧ ((emitting 643 true).stage = .emit ∨ (emitting 643 true).stage = .done) ∧
      State.reset.stage = .idle ∧ (State.reset.setStage .build).stage = .build ∧
      (driven { Pins.idle with reset := true }).pins.reset = true :=
  ⟨witness_PipelineInv_emit true, .inl rfl, rfl, rfl, rfl⟩

/-- P6, the reset values (R38, R221): after a reset in EMIT the taps show the defaults and zero frames. -/
theorem test_taps_after_reset :
    (match step { emitting 100 true with inputs := [{ Pins.idle with reset := true }] } with
      | .next t => t.taps
      | .fault _ => none
      | .refused _ => none) =
      some ⟨Command.defaults, 0, [0, 0, 0, 0, 0, 0, 0, 0, 0, 0, 0, 0, 0, 0, 0, 0, 0, 0, 0, 0],
        [0, 0, 0, 0, 0, 0, 0, 0, 0, 0, 0, 0, 0, 0, 0, 0, 0, 0, 0]⟩ := by decide

theorem witness_ENCODE_not_busy :
    State.reset.busy = false ∧ (emitting 643 true |>.setStage .done).busy = false ∧
      State.reset.pins.slots = (State.reset.setStage .done).pins.slots := ⟨rfl, rfl, rfl⟩

theorem witness_SteppedOperationIsEncode :
    let q := startPins PartialCommand.empty
    let s := { State.reset with inputs := [q, q] }
    s.ops = [] ∧ (s.stage = .idle ∨ s.stage = .done) ∧ s.inputs = q :: [q] ∧ q.reset = false ∧ q.start = true ∧
      ∀ x ∈ [q], x.reset = false ∧ x.outReady = true := by decide

theorem witness_OperationWaitsOnlyForTheConsumer :
    (emitting 643 true).PipelineInv ∧ (emitting 643 true).busy = true ∧ (emitting 643 true).pins.reset = false ∧
      ((emitting 643 true).stage = .emit → (emitting 643 true).pins.outReady = true) :=
  ⟨witness_PipelineInv_emit true, rfl, rfl, fun _ => rfl⟩

theorem witness_PipelineInvariantIsKept : State.reset.PipelineInv := rfl

theorem witness_StructuralInvariantIsKept :
    State.reset.Inv ∧ ∃ t, step (State.reset.withFetchWord 16 0x3700) = .next t :=
  ⟨⟨by decide, by decide, rfl, by decide⟩, _, rfl⟩

theorem witness_EveryOperationCompletes :
    (Instr.emitFrame .B 19).wf = true ∧ FrameName.A.length < 21 ∧ ¬ ∃ t, exec (.emitFrame .A 21) State.reset = .next t :=
  ⟨rfl, by decide, by rintro ⟨t, h⟩; exact nomatch h⟩

end Sys2Proof.Tests
end

section
/-! SUPPORT. What the memory, emission and normalizing operations leave, in the form that the statements about the
registers (10_state.md) cite. -/

namespace Sys2Proof.Machine

/-! ### Storing a frame -/

theorem State.storeBytes_append (s : State) (f : FrameName) (i : Nat) (vs ws : List Byte) :
    s.storeBytes f i (vs ++ ws) = (s.storeBytes f i vs).storeBytes f (i + vs.length) ws := by
  induction vs generalizing s i with
  | nil => rfl
  | cons v vs ih =>
    simp only [List.cons_append, State.storeBytes_cons, ih, List.length_cons]
    congr 1
    omega

theorem State.storeBytes_setT (s : State) (w : BitVec 32) (f : FrameName) (i : Nat) (vs : List Byte) :
    (s.setT w).storeBytes f i vs = (s.storeBytes f i vs).setT w := by
  induction vs generalizing s i with
  | nil => rfl
  | cons v vs ih =>
    have hv : (s.setT w).storeByte f i v = (s.storeByte f i v).setT w := by cases f <;> rfl
    rw [State.storeBytes_cons, hv, ih, State.storeBytes_cons]

@[simp] theorem State.storeBytes_p (s : State) (f : FrameName) (i : Nat) (vs : List Byte) :
    (s.storeBytes f i vs).p = s.p := by
  cases f
  · rw [State.storeBytes_A_eq]
  · rw [State.storeBytes_B_eq]

@[simp] theorem State.storeBytes_subst (s : State) (f : FrameName) (i : Nat) (vs : List Byte) :
    (s.storeBytes f i vs).subst = s.subst := by
  cases f
  · rw [State.storeBytes_A_eq]
  · rw [State.storeBytes_B_eq]

@[simp] theorem State.storeBytes_t (s : State) (f : FrameName) (i : Nat) (vs : List Byte) :
    (s.storeBytes f i vs).t = s.t := by
  cases f
  · rw [State.storeBytes_A_eq]
  · rw [State.storeBytes_B_eq]

@[simp] theorem State.storeBytes_A_fb (s : State) (i : Nat) (vs : List Byte) : (s.storeBytes .A i vs).fb = s.fb := by
  rw [State.storeBytes_A_eq]

@[simp] theorem State.storeBytes_B_fa (s : State) (i : Nat) (vs : List Byte) : (s.storeBytes .B i vs).fa = s.fa := by
  rw [State.storeBytes_B_eq]

@[simp] theorem payloadA_length (p : Command) : (payloadA p).length = 19 := rfl
@[simp] theorem payloadBHead_length (p : Command) : (payloadBHead p).length = 9 := rfl
@[simp] theorem payloadB_length (p : Command) : (payloadB p).length = 18 := rfl
@[simp] theorem frameA_length (p : Command) : (frameA p).length = 20 := rfl
@[simp] theorem frameB_length (p : Command) : (frameB p).length = 19 := rfl

/-- BUILD.B computes T and stores the 19 bytes of Frame B from offset 0 on. -/
theorem State.buildB_eq (s : State) :
    s.buildB = (s.storeBytes .B 0 (payloadB s.p ++ [0])).setT (timerWord s.p) := by
  have hbytes : payloadB s.p ++ [0] = payloadBHead s.p ++ (wordBytes (timerWord s.p) ++ (payloadBTail s.p ++ [0])) := by
    simp [payloadB]
  rw [hbytes, State.storeBytes_append, State.storeBytes_append, ← State.storeBytes_setT, ← State.storeBytes_setT]
  simp only [State.buildB, State.storeWord, State.setT_t, payloadBHead_length]
  rfl

/-- The bytes of a list stored from offset 0 on are held. -/
theorem State.storeBytes_holds (s : State) (f : FrameName) (bs : List Byte) :
    Memory.holds ((s.storeBytes f 0 bs).frame f) bs := by
  intro i hi
  have hread := State.loadByte_storeBytes s f 0 i bs
  rw [if_pos ⟨Nat.zero_le i, by omega⟩] at hread
  exact hread

/-- The last byte of a held list replaced. -/
theorem Memory.holds_set_last (m : Memory) (bs : List Byte) (v w : Byte) (h : Memory.holds m (bs ++ [v])) :
    Memory.holds (Memory.set m bs.length w) (bs ++ [w]) := by
  intro i hi
  have hlen : i < bs.length + 1 := by simpa using hi
  rw [Memory.get_set]
  by_cases hlast : bs.length = i
  · simp [← hlast]
  · have hib : i < bs.length := by omega
    rw [if_neg hlast, h i (by simpa using hlen), List.getD_append _ _ _ _ hib, List.getD_append _ _ _ _ hib]

/-- CSUM.A and CSUM.B: a held payload with a byte after it becomes the payload with its checksum. -/
theorem State.storeByte_csum_holds (s : State) (f : FrameName) (bs : List Byte) (v : Byte)
    (h : Memory.holds (s.frame f) (bs ++ [v])) :
    Memory.holds ((s.storeByte f bs.length (csum (s.loadBytes f bs.length))).frame f) (bs ++ [csum bs]) := by
  have hread : s.loadBytes f bs.length = bs := by
    rw [State.loadBytes_of_holds s f _ _ (by simp) h, List.take_left]
  have hset (w : Byte) : (s.storeByte f bs.length w).frame f = Memory.set (s.frame f) bs.length w := by
    cases f <;> rfl
  rw [hread, hset]
  exact Memory.holds_set_last _ bs v _ h

/-! ### The entries of the sequence -/

/-- A concatenation of blocks of `n` entries, read at an index: the block of the index, and the place in it. -/
theorem getElem?_flatMap_blocks {α β : Type} (n : Nat) (g : α → List β) (hg : ∀ x, (g x).length = n) (hn : 0 < n)
    (xs : List α) (m : Nat) : (xs.flatMap g)[m]? = xs[m / n]?.bind fun x => (g x)[m % n]? := by
  induction xs generalizing m with
  | nil => simp
  | cons x xs ih =>
    rw [List.flatMap_cons, List.getElem?_append, hg]
    by_cases hm : m < n
    · simp [hm, Nat.div_eq_of_lt hm, Nat.mod_eq_of_lt hm]
    · obtain ⟨q, rfl⟩ := Nat.exists_eq_add_of_le (Nat.le_of_not_lt hm)
      rw [if_neg hm, ih]
      simp [Nat.add_div_left _ hn]

theorem bitSymbol_getElem? (b : Bool) (r : Nat) (hr : r < 2) :
    (bitSymbol b)[r]? = some (if r = 0 then tMark else if b then tSpace1 else tSpace0) := by
  obtain rfl | rfl : r = 0 ∨ r = 1 := by omega
  · cases b <;> rfl
  · cases b <;> rfl

theorem byteSymbols_getElem? (v : Byte) (r : Nat) (hr : r < 16) :
    (byteSymbols v)[r]? = some (if r % 2 = 0 then tMark else if v.getLsbD (r / 2) then tSpace1 else tSpace0) := by
  rw [byteSymbols, getElem?_flatMap_blocks 2 _ (fun _ => bitSymbol_length _) (by decide),
    List.getElem?_range (by omega), Option.bind_some, bitSymbol_getElem? _ _ (Nat.mod_lt _ (by decide))]

/-- R168: the symbols of the bytes of a frame, read at an index, are the entries of the frame. -/
theorem State.frameSymbols_loadBytes_getElem? (s : State) (f : FrameName) (n m : Nat) (hm : m < 16 * n) :
    (frameSymbols (s.loadBytes f n))[m]? = some (s.frameEntry f m) := by
  have hbyte : (s.loadBytes f n)[m / 16]? = some (s.loadByte f (m / 16)) := by
    simp [State.loadBytes, List.getElem?_range (show m / 16 < n by omega)]
  rw [frameSymbols, getElem?_flatMap_blocks 16 _ byteSymbols_length (by decide), hbyte, Option.bind_some,
    byteSymbols_getElem? _ _ (Nat.mod_lt _ (by decide)), State.frameEntry, Nat.mod_mod_of_dvd m (by decide)]

theorem sequenceOf_length (a b : List Byte) : (sequenceOf a b).length = 20 + 16 * a.length + 16 * b.length := by
  simp only [sequenceOf, List.length_append, frameSymbols_length, symLeader, symMarker, symStop, List.length_replicate,
    List.length_cons, List.length_nil]
  omega

/-- R168: the sequence of the frames as they stand, read at an index, is the entry of that index. -/
theorem State.sequenceOf_loadBytes_getElem? (s : State) (k : Nat) (hk : k < 644) :
    (sequenceOf (s.loadBytes .A 20) (s.loadBytes .B 19))[k]? = some (s.entryAt k) := by
  have hleader : symLeader.length = 10 := rfl
  have hmarker : symMarker.length = 4 := rfl
  have hget (l : List Duration) (i : Nat) (hi : i < l.length) : l[i]? = some (l.getD i 0) := by
    simp [hi]
  simp only [sequenceOf, List.append_assoc, List.getElem?_append, frameSymbols_length, State.loadBytes_length, hleader,
    hmarker, Nat.sub_sub, Nat.reduceAdd, Nat.reduceMul, State.entryAt]
  by_cases hk1 : k ≤ 9
  · rw [if_pos (by omega), if_pos hk1, hget _ _ (by omega)]
  rw [if_neg (by omega), if_neg hk1]
  by_cases hk2 : k ≤ 13
  · rw [if_pos (by omega), if_pos hk2, hget _ _ (by omega)]
  rw [if_neg (by omega), if_neg hk2]
  by_cases hk3 : k ≤ 333
  · rw [if_pos (by omega), if_pos hk3, State.frameSymbols_loadBytes_getElem? _ _ _ _ (by omega)]
  rw [if_neg (by omega), if_neg hk3]
  by_cases hk4 : k ≤ 337
  · rw [if_pos (by omega), if_pos hk4, hget _ _ (by omega)]
  rw [if_neg (by omega), if_neg hk4]
  by_cases hk5 : k ≤ 641
  · rw [if_pos (by omega), if_pos hk5, State.frameSymbols_loadBytes_getElem? _ _ _ _ (by omega)]
  rw [if_neg (by omega), if_neg hk5, hget _ _ (show k - 642 < 2 by omega)]

/-- SEQUENCE replaces SEQ by the sequence of the two frames and leaves K at 644; nothing else changes. -/
theorem State.sequence_eq (s : State) :
    s.sequence = { s with seq := sequenceOf (s.loadBytes .A 20) (s.loadBytes .B 19), k := 644 } := by
  have hload (ds : List Duration) (f : FrameName) (n : Nat) :
      (s.clearSeq.emitAll ds).loadBytes f n = s.loadBytes f n := by
    have hclear (i : Nat) : s.clearSeq.loadByte f i = s.loadByte f i := by cases f <;> rfl
    exact List.map_congr_left fun i _ => (State.emitAll_loadByte _ _ _ _).trans (hclear i)
  have hseq : s.sequence = s.clearSeq.emitAll (sequenceOf (s.loadBytes .A 20) (s.loadBytes .B 19)) := by
    simp only [State.sequence, State.emitFrame_eq, ← State.emitAll_append, hload, sequenceOf, FrameName.length]
  have hlen : (sequenceOf (s.loadBytes .A 20) (s.loadBytes .B 19)).length = 644 := by
    simp only [sequenceOf_length, State.loadBytes_length]
  rw [hseq, State.emitAll_fits _ _ (by simp [hlen]), hlen]
  simp [State.clearSeq]

/-! ### Normalizing a slot -/

/-- Where the register holds the default, a NORM operation leaves it at the value of the slot (R182). -/
theorem State.normField_p_of_default {α : Type} (s : State) (f : Field) (slot : Slot) (valueOf : Raw → Option α)
    (dflt : α) (write : Command → α → Command) (hd : write s.p dflt = s.p) :
    (s.normField f slot valueOf dflt write).p = write s.p (slotValue valueOf dflt slot) := by
  rcases State.normField_cases s f slot valueOf dflt write with
    ⟨rfl, hs⟩ | ⟨r, v, rfl, hv, hs⟩ | ⟨r, rfl, hv, hs⟩
  · rw [hs, slotValue, hd]
  · simp [hs, slotValue, hv]
  · simp [hs, slotValue, hv]

/-- The bit that a NORM operation adds to SUBST: its own where the slot is present and invalid (R111). -/
def substBit (f : Field) (slot : Slot) : BitVec 9 :=
  if slot.any (fun r => !validFor f r) then 1#9 <<< f.slot else 0

/-- R111: a NORM operation adds its bit to SUBST, where SUBST exists. -/
theorem State.normField_subst {α : Type} (s : State) (f : Field) (slot : Slot) (valueOf : Raw → Option α) (dflt : α)
    (write : Command → α → Command) (hvalid : ∀ r, validFor f r = (valueOf r).isSome) :
    (s.normField f slot valueOf dflt write).subst = s.subst.map (· ||| substBit f slot) := by
  rcases State.normField_cases s f slot valueOf dflt write with
    ⟨rfl, hs⟩ | ⟨r, v, rfl, hv, hs⟩ | ⟨r, rfl, hv, hs⟩
  · simp [hs, substBit]
  · simp [hs, substBit, hvalid, hv]
  · simp [hs, substBit, hvalid, hv]

@[simp] theorem State.normField_raw {α : Type} (s : State) (f : Field) (slot : Slot) (valueOf : Raw → Option α)
    (dflt : α) (write : Command → α → Command) : (s.normField f slot valueOf dflt write).raw = s.raw :=
  (State.sameControl_normField s f slot valueOf dflt write).1

/-! ### The nine NORM operations by their field -/

/-- The nine fields in slot order. -/
def Field.all : List Field :=
  [.temperature, .autotemp, .fan, .swing, .state, .mode, .ontimer, .offtimer, .streamer]

/-- The NORM operation of a field. -/
def Field.normInstr : Field → Instr
  | .temperature => .normTemperature
  | .autotemp => .normAutotemp
  | .fan => .normFan
  | .swing => .normSwing
  | .state => .normState
  | .mode => .normMode
  | .ontimer => .normOntimer
  | .offtimer => .normOfftimer
  | .streamer => .normStreamer

/-- What the NORM operation of a field does. -/
def State.norm (s : State) : Field → State
  | .temperature => s.normTemperature
  | .autotemp => s.normAutotemp
  | .fan => s.normFan
  | .swing => s.normSwing
  | .state => s.normState
  | .mode => s.normMode
  | .ontimer => s.normOntimer
  | .offtimer => s.normOfftimer
  | .streamer => s.normStreamer

theorem exec_normInstr (f : Field) (s : State) : exec f.normInstr s = .next (s.norm f) := by cases f <;> rfl

theorem State.normalizeAll_eq (s : State) : s.normalizeAll = Field.all.foldl State.norm s.loadDefaults := rfl

theorem Field.mem_all (f : Field) : f ∈ Field.all := by cases f <;> decide

theorem Field.exists_slot (n : Nat) (hn : n < 9) : ∃ f : Field, f.slot = n :=
  ⟨Field.all[n], by interval_cases n <;> rfl⟩

theorem Field.slot_lt (f : Field) : f.slot < 9 := by cases f <;> decide

theorem Field.all_getElem?_slot (f : Field) : Field.all[f.slot]? = some f := by cases f <;> rfl

theorem Field.slot_injective : Function.Injective Field.slot := fun f g h =>
  Option.some.inj (by rw [← f.all_getElem?_slot, h, g.all_getElem?_slot])

theorem State.norm_raw (s : State) (f : Field) : (s.norm f).raw = s.raw := by
  cases f <;> exact State.normField_raw _ _ _ _ _ _

theorem State.norm_subst (s : State) (f : Field) :
    (s.norm f).subst = s.subst.map (· ||| substBit f (s.raw.get f)) := by
  cases f <;> exact State.normField_subst _ _ _ _ _ _ fun _ => rfl

/-- A NORM operation takes the registers from the normalized values below its slot to those up to its slot. -/
theorem State.norm_p (s : State) (f : Field) (hp : s.p = normalizedUpTo f.slot s.raw) :
    (s.norm f).p = normalizedUpTo (f.slot + 1) s.raw := by
  cases f <;> exact (State.normField_p_of_default _ _ _ _ _ _ (by rw [hp]; rfl)).trans (by rw [hp]; rfl)

/-- R111: after several NORM operations a bit of SUBST is set where it was, and where the slot of one of them is
present and invalid. -/
theorem State.foldl_norm_subst (s : State) (fs : List Field) :
    (fs.foldl State.norm s).subst =
      s.subst.map fun w => fs.foldl (fun w f => w ||| substBit f (s.raw.get f)) w := by
  induction fs generalizing s with
  | nil => simp
  | cons f fs ih => simp [ih, State.norm_subst, State.norm_raw, Function.comp_def]

theorem substBit_getLsbD (f g : Field) (slot : Slot) :
    (substBit g slot).getLsbD f.slot = true ↔ g = f ∧ ∃ r, slot = some r ∧ validFor g r = false := by
  have hbit : (1#9 <<< g.slot).getLsbD f.slot = decide (g = f) := by
    rw [← BitVec.twoPow_eq, BitVec.getLsbD_twoPow, decide_eq_true g.slot_lt, Bool.true_and]
    exact decide_eq_decide.mpr Field.slot_injective.eq_iff
  cases slot with
  | none => simp [substBit]
  | some r => cases hv : validFor g r <;> simp [substBit, hv, hbit]

theorem foldl_substBit_getLsbD (f : Field) (c : PartialCommand) (fs : List Field) (w : BitVec 9) :
    (fs.foldl (fun w g => w ||| substBit g (c.get g)) w).getLsbD f.slot = true ↔
      w.getLsbD f.slot = true ∨ f ∈ fs ∧ ∃ r, c.get f = some r ∧ validFor f r = false := by
  induction fs generalizing w with
  | nil => simp
  | cons g fs ih =>
    rw [List.foldl_cons, ih, BitVec.getLsbD_or, Bool.or_eq_true, substBit_getLsbD, List.mem_cons]
    constructor
    · rintro ((hw | ⟨rfl, hr⟩) | ⟨hf, hr⟩)
      · exact .inl hw
      · exact .inr ⟨.inl rfl, hr⟩
      · exact .inr ⟨.inr hf, hr⟩
    · rintro (hw | ⟨rfl | hf, hr⟩)
      · exact .inl (.inl hw)
      · exact .inl (.inr ⟨rfl, hr⟩)
      · exact .inr ⟨hf, hr⟩

/-- A raw value is valid for a field exactly when it lies in the field's domain (R110). -/
theorem validFor_iff_inDomain (f : Field) (r : Raw) : validFor f r = true ↔ inDomain f r := by
  cases f
  case temperature | autotemp | ontimer | offtimer =>
    cases r <;> simp [validFor, inDomain, temperatureOf, autotempOf, timerOf]
  case swing | state | streamer =>
    cases r <;> simp [validFor, inDomain, boolOf]
  case fan =>
    cases r
    case sym x => simp only [validFor, inDomain, fanOf]; split_ifs <;> simp_all
    all_goals simp [validFor, inDomain, fanOf]
  case mode =>
    cases r
    case sym x => simp only [validFor, inDomain, modeOf]; split_ifs <;> simp_all
    all_goals simp [validFor, inDomain, modeOf]

end Sys2Proof.Machine
end

section
/-! SUPPORT. One step of the block, read backwards and forwards, and what ENCODE is outside BUSY. -/

namespace Sys2Proof.Machine

theorem step_of_reset (s : State) (hr : s.pins.reset = true) : step s = .next s.applyReset.tick := by
  simp [step, State.stepOnce, hr]

theorem step_of_ops_nil (s : State) (hr : s.pins.reset = false) (ho : s.ops = []) : step s = .next s.advance.tick := by
  simp [step, State.stepOnce, hr, ho]

theorem step_of_ops_ne_nil (s : State) (hr : s.pins.reset = false) (ho : s.ops ≠ []) : step s = s.perform := by
  obtain ⟨b, bs, hops⟩ := List.exists_cons_of_ne_nil ho
  simp [step, State.stepOnce, hr, hops]

/-- The operation at the front of the words left is performed on the state with its word taken off. -/
theorem State.perform_of_decode (s : State) (i : Instr) (rest : List Byte) (h : decode s.ops = .ok (i, rest)) :
    s.perform = tickOutcome (exec i (s.setOps rest)) := by
  simp [State.perform, h]

/-- Everything a step that goes on can do: a reset, an advance, or an operation. -/
theorem step_cases (s t : State) (h : step s = .next t) :
    (s.pins.reset = true ∧ t = s.applyReset.tick) ∨
    (s.pins.reset = false ∧ s.ops = [] ∧ t = s.advance.tick) ∨
    (s.pins.reset = false ∧
      ∃ i rest u, decode s.ops = .ok (i, rest) ∧ exec i (s.setOps rest) = .next u ∧ t = u.tick) := by
  cases hr : s.pins.reset with
  | true =>
    rw [step_of_reset s hr] at h
    exact .inl ⟨rfl, (Host.Outcome.next.inj h).symm⟩
  | false =>
    by_cases ho : s.ops = []
    · rw [step_of_ops_nil s hr ho] at h
      exact .inr (.inl ⟨rfl, ho, (Host.Outcome.next.inj h).symm⟩)
    · rw [step_of_ops_ne_nil s hr ho] at h
      cases hd : decode s.ops with
      | error e => simp [State.perform, hd] at h
      | ok x =>
        obtain ⟨i, rest⟩ := x
        rw [State.perform_of_decode s i rest hd] at h
        cases hx : exec i (s.setOps rest) with
        | next u =>
          rw [hx] at h
          exact .inr (.inr ⟨rfl, i, rest, u, rfl, hx, (Host.Outcome.next.inj h).symm⟩)
        | fault e => rw [hx] at h; exact nomatch h
        | refused r => rw [hx] at h; exact nomatch h

theorem State.encodeAll_of_busy (s : State) (hb : s.busy = true) : s.encodeAll = s := by
  simp [State.encodeAll, hb]

/-- R180: the stages of ENCODE after capture and normalization. -/
def State.buildAndEmit (s : State) : State :=
  ((((s.setStage .build).buildA.buildB.setStage .checksum).csumA.csumB.setStage .emit).sequence).setStage .done

theorem State.encodeAll_of_not_busy (s : State) (hb : s.busy = false) :
    s.encodeAll = ((s.capture s.pins.slots).setStage .normalize).normalizeAll.buildAndEmit := by
  simp [State.encodeAll, hb, State.buildAndEmit]

/-- Building, checksumming and emitting report nothing in SUBST. -/
@[simp] theorem State.buildAndEmit_subst (s : State) : s.buildAndEmit.subst = s.subst := by
  simp [State.buildAndEmit, State.sequence_eq, State.csumA, State.csumB, State.buildB_eq, State.buildA]

end Sys2Proof.Machine
end

section
/-! SUPPORT. SUBST is read by nothing (R34): the operations as functions on the state that commute with another SUBST. -/

namespace Sys2Proof.Machine

/-- The state with another SUBST. -/
def State.withSubst (s : State) (x : Option (BitVec 9)) : State := { s with subst := x }

/-- With another SUBST the function does the same to everything else, and it neither creates nor removes SUBST. -/
def IgnoresSubst (op : State → State) : Prop :=
  ∀ (s : State) (x : Option (BitVec 9)), ∃ y, op (s.withSubst x) = (op s).withSubst y ∧ y.isSome = x.isSome

theorem IgnoresSubst.comp {f g : State → State} (hg : IgnoresSubst g) (hf : IgnoresSubst f) :
    IgnoresSubst fun s => g (f s) := by
  intro s x
  obtain ⟨y, hy, hyx⟩ := hf s x
  obtain ⟨z, hz, hzy⟩ := hg (f s) y
  exact ⟨z, (congrArg g hy).trans hz, hzy.trans hyx⟩

/-- A function performed under a condition that does not depend on SUBST, such as a form of FB[6]. -/
theorem IgnoresSubst.ite {op : State → State} (hop : IgnoresSubst op) (c : State → Prop) [DecidablePred c]
    (hc : ∀ (s : State) (x : Option (BitVec 9)), c (s.withSubst x) ↔ c s) :
    IgnoresSubst fun s => if c s then op s else s := by
  intro s x
  by_cases h : c s
  · simpa only [hc, h, if_true] using hop s x
  · exact ⟨x, by simp only [hc, h, if_false], rfl⟩

theorem ignoresSubst_emitAll (ds : List Duration) : IgnoresSubst fun s => s.emitAll ds := by
  intro s x
  refine ⟨x, ?_, rfl⟩
  simp only [State.emitAll_eq]
  rfl

theorem ignoresSubst_emitBit (b : Bool) : IgnoresSubst fun s => s.emitBit b := by
  simpa only [State.emitBit_eq] using ignoresSubst_emitAll (bitSymbol b)

theorem ignoresSubst_emitByte (v : Byte) : IgnoresSubst fun s => s.emitByte v := by
  simpa only [State.emitByte_eq] using ignoresSubst_emitAll (byteSymbols v)

theorem ignoresSubst_emitFrame (f : FrameName) (n : Nat) : IgnoresSubst fun s => s.emitFrame f n := by
  intro s x
  refine ⟨x, ?_, rfl⟩
  simp only [State.emitFrame_eq, State.emitAll_eq]
  cases f <;> rfl

theorem ignoresSubst_sequence : IgnoresSubst State.sequence := by
  intro s x
  refine ⟨x, ?_, rfl⟩
  simp only [State.sequence_eq]
  rfl

/-- Bytes that do not depend on SUBST, stored from an offset on. -/
theorem ignoresSubst_storeBytes (f : FrameName) (i : Nat) (bytes : State → List Byte)
    (hb : ∀ (s : State) (x : Option (BitVec 9)), bytes (s.withSubst x) = bytes s) :
    IgnoresSubst fun s => s.storeBytes f i (bytes s) := by
  intro s x
  refine ⟨x, ?_, rfl⟩
  have hstore (vs : List Byte) (r : State) (j : Nat) :
      (r.withSubst x).storeBytes f j vs = (r.storeBytes f j vs).withSubst x := by
    induction vs generalizing r j with
    | nil => rfl
    | cons v vs ih =>
      have hv : (r.withSubst x).storeByte f j v = (r.storeByte f j v).withSubst x := by
        cases f <;> rfl
      rw [State.storeBytes_cons, hv, ih, State.storeBytes_cons]
  simp only [hb, hstore]

/-- One byte that does not depend on SUBST, stored at an offset. -/
theorem ignoresSubst_storeByte (f : FrameName) (i : Nat) (byte : State → Byte)
    (hb : ∀ (s : State) (x : Option (BitVec 9)), byte (s.withSubst x) = byte s) :
    IgnoresSubst fun s => s.storeByte f i (byte s) :=
  ignoresSubst_storeBytes f i (fun s => [byte s]) fun s x => congrArg (fun v => [v]) (hb s x)

theorem ignoresSubst_normField {α : Type} (f : Field) (valueOf : Raw → Option α) (dflt : α)
    (write : Command → α → Command) : IgnoresSubst fun s => s.normField f (s.raw.get f) valueOf dflt write := by
  intro s x
  show ∃ y, (s.withSubst x).normField f (s.raw.get f) valueOf dflt write =
    (s.normField f (s.raw.get f) valueOf dflt write).withSubst y ∧ y.isSome = x.isSome
  cases s.raw.get f with
  | none => exact ⟨x, rfl, rfl⟩
  | some r =>
    cases hv : valueOf r with
    | some v => exact ⟨x, by simp only [State.normField, hv]; rfl, rfl⟩
    | none => exact ⟨x.map (· ||| 1#9 <<< f.slot), by simp only [State.normField, hv]; rfl, by simp⟩

theorem ignoresSubst_norm (f : Field) : IgnoresSubst fun s => s.norm f := by
  cases f <;> simp only [State.norm] <;> exact ignoresSubst_normField _ _ _ _

theorem ignoresSubst_loadDefaults : IgnoresSubst State.loadDefaults := fun _ x => ⟨x.map fun _ => 0, rfl, by simp⟩

theorem ignoresSubst_normalizeAll : IgnoresSubst State.normalizeAll := by
  have hfold (fs : List Field) : IgnoresSubst fun s => fs.foldl State.norm s := by
    induction fs with
    | nil => exact fun _ x => ⟨x, rfl, rfl⟩
    | cons f fs ih => exact ih.comp (ignoresSubst_norm f)
  exact (hfold Field.all).comp ignoresSubst_loadDefaults

theorem ignoresSubst_setStage (g : Stage) : IgnoresSubst fun s => s.setStage g := fun _ x => ⟨x, rfl, rfl⟩

theorem ignoresSubst_buildA : IgnoresSubst State.buildA :=
  ignoresSubst_storeBytes .A 0 (fun s => payloadA s.p ++ [0]) fun _ _ => rfl

theorem ignoresSubst_buildB : IgnoresSubst State.buildB := by
  have hset : IgnoresSubst fun s => s.setT (timerWord s.p) := fun _ x => ⟨x, rfl, rfl⟩
  have hstore := ignoresSubst_storeBytes .B 0 (fun s => payloadB s.p ++ [0]) fun _ _ => rfl
  convert hstore.comp hset using 2 with s
  rw [State.storeBytes_setT]
  exact s.buildB_eq

theorem ignoresSubst_csumA : IgnoresSubst State.csumA := ignoresSubst_storeByte .A 19 _ fun _ _ => rfl

theorem ignoresSubst_csumB : IgnoresSubst State.csumB := ignoresSubst_storeByte .B 18 _ fun _ _ => rfl

theorem ignoresSubst_buildAndEmit : IgnoresSubst State.buildAndEmit :=
  (ignoresSubst_setStage _).comp <| ignoresSubst_sequence.comp <| (ignoresSubst_setStage _).comp <|
    ignoresSubst_csumB.comp <| ignoresSubst_csumA.comp <| (ignoresSubst_setStage _).comp <|
    ignoresSubst_buildB.comp <| ignoresSubst_buildA.comp (ignoresSubst_setStage _)

theorem ignoresSubst_encodeAll : IgnoresSubst State.encodeAll := by
  intro s x
  cases hb : s.busy with
  | true => exact ⟨x, by rw [State.encodeAll_of_busy s hb]; exact State.encodeAll_of_busy _ hb, rfl⟩
  | false =>
    have hcapture : IgnoresSubst fun s => s.capture s.pins.slots := fun _ x => ⟨x, rfl, rfl⟩
    have hall : ∃ y, ((((s.withSubst x).capture s.pins.slots).setStage .normalize).normalizeAll).buildAndEmit =
        (((s.capture s.pins.slots).setStage .normalize).normalizeAll.buildAndEmit).withSubst y ∧ y.isSome = x.isSome :=
      (ignoresSubst_buildAndEmit.comp <| ignoresSubst_normalizeAll.comp <|
      (ignoresSubst_setStage .normalize).comp hcapture) s x
    rwa [State.encodeAll_of_not_busy s hb, State.encodeAll_of_not_busy (s.withSubst x) hb]

/-- What the statement asks of one operation follows for an operation that never stops. -/
theorem exec_withSubst_of_eq {i : Instr} {op : State → State} (hi : ∀ s, exec i s = .next (op s))
    (hop : IgnoresSubst op) (s t : State) (x : Option (BitVec 9)) (h : exec i s = .next t) :
    ∃ y, exec i (s.withSubst x) = .next (t.withSubst y) ∧ y.isSome = x.isSome := by
  obtain ⟨y, hy, hyx⟩ := hop s x
  rw [hi] at h
  exact ⟨y, by rw [hi, hy, Host.Outcome.next.inj h], hyx⟩

/-- R34, R111: with another SUBST an operation goes on to the same state but for SUBST. -/
theorem exec_withSubst (i : Instr) (s t : State) (x : Option (BitVec 9)) (h : exec i s = .next t) :
    ∃ y, exec i (s.withSubst x) = .next (t.withSubst y) ∧ y.isSome = x.isSome := by
  cases i
  case encode => exact exec_withSubst_of_eq (fun _ => rfl) ignoresSubst_encodeAll s t x h
  case loadDefaults => exact exec_withSubst_of_eq (fun _ => rfl) ignoresSubst_loadDefaults s t x h
  case normTemperature | normAutotemp | normFan | normSwing | normState | normMode | normOntimer | normOfftimer
      | normStreamer => exact exec_withSubst_of_eq (fun _ => rfl) (ignoresSubst_normField _ _ _ _) s t x h
  case buildA => exact exec_withSubst_of_eq (fun _ => rfl) ignoresSubst_buildA s t x h
  case buildB => exact exec_withSubst_of_eq (fun _ => rfl) ignoresSubst_buildB s t x h
  case sequence => exact exec_withSubst_of_eq (fun _ => rfl) ignoresSubst_sequence s t x h
  case emitLeader | emitMarker | emitStop | leader | marker | stop | bit0 | bit1 =>
    exact exec_withSubst_of_eq (fun _ => rfl) (ignoresSubst_emitAll _) s t x h
  case emitBit b =>
    exact exec_withSubst_of_eq (fun _ => rfl) (ignoresSubst_emitBit b) s t x h
  case emitByte v =>
    exact exec_withSubst_of_eq (fun _ => rfl) (ignoresSubst_emitByte v) s t x h
  case emitFrame f n =>
    by_cases hn : n ≤ f.length
    · exact exec_withSubst_of_eq (i := .emitFrame f n) (fun _ => if_pos hn) (ignoresSubst_emitFrame f n) s t x h
    · exact absurd h (by simp [exec, execEmitFrame, hn])
  case fa5to7 | fa9to18 | fb13to14 =>
    refine exec_withSubst_of_eq (fun _ => rfl) ?_ s t x h
    exact ignoresSubst_storeBytes _ _ (fun _ => List.replicate _ _) fun _ _ => rfl
  case fb6Autodry | fb6Coldhot | fb6Fan =>
    refine exec_withSubst_of_eq (fun _ => rfl) ?_ s t x h
    refine IgnoresSubst.ite ?_ _ ?_
    · exact ignoresSubst_storeByte _ _ _ fun _ _ => rfl
    · exact fun _ _ => Iff.rfl
  all_goals
    refine exec_withSubst_of_eq (fun _ => rfl) ?_ s t x h
    exact ignoresSubst_storeByte _ _ _ fun _ _ => rfl

end Sys2Proof.Machine
end

section
/-! SUPPORT. The structural invariant: K counts the entries, and the buffers stay canonical, under every operation. -/

namespace Sys2Proof.Machine

theorem State.Inv.storeBytes {s : State} (h : s.Inv) (f : FrameName) (i : Nat) (vs : List Byte)
    (hlen : i + vs.length ≤ f.length) : (s.storeBytes f i vs).Inv := by
  obtain ⟨ha, hb, hk, hle⟩ := h
  cases f
  · have hwf := State.storeBytes_A_wf s i vs hlen ha
    rw [State.storeBytes_A_eq]
    exact ⟨hwf, hb, hk, hle⟩
  · have hwf := State.storeBytes_B_wf s i vs hlen hb
    rw [State.storeBytes_B_eq]
    exact ⟨ha, hwf, hk, hle⟩

theorem State.Inv.storeByte {s : State} (h : s.Inv) (f : FrameName) (i : Nat) (v : Byte) (hi : i + 1 ≤ f.length) :
    (s.storeByte f i v).Inv := h.storeBytes f i [v] hi

theorem State.Inv.emitAll {s : State} (h : s.Inv) (ds : List Duration) : (s.emitAll ds).Inv := by
  obtain ⟨ha, hb, hk, hle⟩ := h
  rw [State.emitAll_eq]
  refine ⟨ha, hb, ?_, ?_⟩
  · simp only [List.length_append, hk]
  · simp only [List.length_take]
    omega

theorem State.Inv.sequence {s : State} (h : s.Inv) : s.sequence.Inv := by
  obtain ⟨ha, hb, -, -⟩ := h
  rw [State.sequence_eq]
  exact ⟨ha, hb, by simp only [sequenceOf_length, State.loadBytes_length], le_refl 644⟩

theorem State.Inv.normField {α : Type} {s : State} (h : s.Inv) (f : Field) (slot : Slot) (valueOf : Raw → Option α)
    (dflt : α) (write : Command → α → Command) : (s.normField f slot valueOf dflt write).Inv := by
  rw [State.normField_frame]
  exact h

theorem State.Inv.normalizeAll {s : State} (h : s.Inv) : s.normalizeAll.Inv := by
  have hnorm (f : Field) (s : State) (h : s.Inv) : (s.norm f).Inv := by cases f <;> exact h.normField _ _ _ _ _
  have hfold (fs : List Field) (s : State) (h : s.Inv) : (fs.foldl State.norm s).Inv := by
    induction fs generalizing s with
    | nil => exact h
    | cons f fs ih => exact ih _ (hnorm f s h)
  exact hfold Field.all s.loadDefaults h

theorem State.Inv.buildA {s : State} (h : s.Inv) : s.buildA.Inv :=
  h.storeBytes .A 0 (payloadA s.p ++ [0]) (le_refl 20)

theorem State.Inv.setT {s : State} (h : s.Inv) (w : BitVec 32) : (s.setT w).Inv := h

theorem State.Inv.buildB {s : State} (h : s.Inv) : s.buildB.Inv := by
  rw [State.buildB_eq]
  exact (h.storeBytes .B 0 (payloadB s.p ++ [0]) (le_refl 19)).setT _

theorem State.Inv.csumA {s : State} (h : s.Inv) : s.csumA.Inv := h.storeByte .A 19 _ (le_refl 20)

theorem State.Inv.csumB {s : State} (h : s.Inv) : s.csumB.Inv := h.storeByte .B 18 _ (le_refl 19)

theorem State.Inv.setStage {s : State} (h : s.Inv) (g : Stage) : (s.setStage g).Inv := h

theorem State.Inv.capture {s : State} (h : s.Inv) (c : PartialCommand) : (s.capture c).Inv := h

theorem State.Inv.buildAndEmit {s : State} (h : s.Inv) : s.buildAndEmit.Inv :=
  (((h.setStage _).buildA.buildB.setStage _).csumA.csumB.setStage _).sequence.setStage _

theorem State.Inv.encodeAll {s : State} (h : s.Inv) : s.encodeAll.Inv := by
  cases hb : s.busy with
  | true => rwa [State.encodeAll_of_busy s hb]
  | false =>
    rw [State.encodeAll_of_not_busy s hb]
    exact ((h.capture _).setStage _).normalizeAll.buildAndEmit

/-- Every operation keeps the structural invariant. -/
theorem exec_keeps_inv (i : Instr) (s t : State) (hs : s.Inv) (h : exec i s = .next t) : t.Inv := by
  cases i
  case encode => exact Host.Outcome.next.inj h ▸ hs.encodeAll
  case loadDefaults => exact Host.Outcome.next.inj h ▸ hs
  case normTemperature | normAutotemp | normFan | normSwing | normState | normMode | normOntimer | normOfftimer
      | normStreamer => exact Host.Outcome.next.inj h ▸ hs.normField _ _ _ _ _
  case buildA => exact Host.Outcome.next.inj h ▸ hs.buildA
  case buildB => exact Host.Outcome.next.inj h ▸ hs.buildB
  case sequence => exact Host.Outcome.next.inj h ▸ hs.sequence
  case emitLeader | emitMarker | emitStop | leader | marker | stop | bit0 | bit1 =>
    exact Host.Outcome.next.inj h ▸ hs.emitAll _
  case emitBit b => exact Host.Outcome.next.inj h ▸ State.emitBit_eq s b ▸ hs.emitAll _
  case emitByte v => exact Host.Outcome.next.inj h ▸ State.emitByte_eq s v ▸ hs.emitAll _
  case emitFrame f n =>
    simp only [exec, execEmitFrame] at h
    split at h
    · exact Host.Outcome.next.inj h ▸ State.emitFrame_eq s f n ▸ hs.emitAll _
    · exact nomatch h
  case fb6Autodry | fb6Coldhot | fb6Fan =>
    refine Host.Outcome.next.inj h ▸ ?_
    split
    · exact hs.storeByte _ _ _ (by decide)
    · exact hs
  case fa5to7 | fa9to18 | fb13to14 => exact Host.Outcome.next.inj h ▸ hs.storeBytes _ _ _ (by decide)
  all_goals exact Host.Outcome.next.inj h ▸ hs.storeByte _ _ _ (by decide)

theorem State.reset_inv : State.reset.Inv := ⟨State.reset_wf.1, State.reset_wf.2, rfl, Nat.zero_le 644⟩

/-- R187: with room in SEQ a taken word is appended, K grows by one, and the last word leads to DONE. -/
theorem State.wordTaken_of_room (s : State) (hk : s.k < 644) :
    s.wordTaken = { s with
      seq := s.seq ++ [s.outWord], k := s.k + 1, stage := if s.k = 643 then .done else s.stage } := by
  have hemit : s.emit s.outWord = { s with seq := s.seq ++ [s.outWord], k := s.k + 1 } := if_pos hk
  simp only [State.wordTaken, hemit, seqLen]
  by_cases hlast : s.k = 643
  · rw [if_pos (by omega), if_pos hlast]; rfl
  · rw [if_neg (by omega), if_neg hlast]

theorem State.Inv.wordTaken {s : State} (h : s.Inv) : s.wordTaken.Inv := by
  have hemit : (s.emit s.outWord).Inv := h.emitAll [s.outWord]
  simp only [State.wordTaken]
  split
  · exact hemit.setStage .done
  · exact hemit

/-- An advance keeps the structural invariant. -/
theorem State.Inv.advance {s : State} (h : s.Inv) : s.advance.Inv := by
  cases hg : s.stage
  case idle | done =>
    simp only [State.advance, hg]
    split
    · exact h
    · exact h
  case normalize | build =>
    simp only [State.advance, hg]
    exact h
  case checksum =>
    simp only [State.advance, hg]
    obtain ⟨ha, hb, -, -⟩ := h
    exact ⟨ha, hb, rfl, Nat.zero_le 644⟩
  case emit =>
    simp only [State.advance, hg]
    split
    · exact h.wordTaken
    · exact h

end Sys2Proof.Machine
end

section
/-! SUPPORT. The pipeline: what one step does in each stage (R31, R180), from the invariant to the invariant. -/

namespace Sys2Proof.Machine

/-- What a step of the pipeline without reset may do to STAGE, K and SEQ (R31). -/
def State.Advances (s t : State) : Prop :=
  (t.stage = s.stage ∨ t.stage = s.stage.succ) ∧
  (s.stage = .emit →
    (t.k = s.k ∧ t.seq = s.seq) ∨ (t.k = s.k + 1 ∧ t.k ≤ 644 ∧ t.seq = s.seq ++ [s.entryAt s.k]))

/-- Outside EMIT only the order of the stages is asked. -/
theorem State.advances_of_stage (s t : State) (hs : s.stage ≠ .emit)
    (ht : t.stage = s.stage ∨ t.stage = s.stage.succ) : s.Advances t := ⟨ht, fun h => absurd h hs⟩

/-- The step goes on, by the order of the stages, into the invariant. -/
def State.StepsOn (s : State) : Prop := ∃ t, step s = .next t ∧ t.PipelineInv ∧ s.Advances t

/-- The operations of the stages of an operation (R180). -/
def pipelineOperations : List Instr := normalizeProgram ++ buildProgram ++ checksumProgram

theorem decode_encode_pipelineOperations (i : Instr) (hi : i ∈ pipelineOperations) (rest : List Byte) :
    decode (encode i ++ rest) = .ok (i, rest) := by
  fin_cases hi <;> rfl

/-- A step that performs the first operation left of the stage; the operation leaves STAGE and RAW alone. -/
theorem step_of_program (s u : State) (i : Instr) (is : List Instr) (hr : s.pins.reset = false)
    (ho : s.ops = programBytes (i :: is)) (hi : i ∈ pipelineOperations)
    (hx : exec i (s.setOps (programBytes is)) = .next u) :
    ∃ t, step s = .next t ∧ t.stage = s.stage ∧ t.raw = s.raw ∧ t.ops = programBytes is ∧
      t.p = u.p ∧ t.t = u.t ∧ t.fa = u.fa ∧ t.fb = u.fb := by
  have hdecode : decode s.ops = .ok (i, programBytes is) := by
    rw [ho]
    exact decode_encode_pipelineOperations i hi (programBytes is)
  have hne : s.ops ≠ [] := by
    rw [ho]
    exact List.cons_ne_nil _ _
  have hnotEncode : i ≠ .encode := by
    rintro rfl
    exact absurd hi (by decide)
  obtain ⟨hraw, hstage, hops, -⟩ := exec_sameControl i hnotEncode _ u hx
  have hstep : step s = .next u.tick := by
    rw [step_of_ops_ne_nil s hr hne, State.perform_of_decode s i _ hdecode, hx]
    rfl
  exact ⟨u.tick, hstep, hstage, hraw, hops, rfl, rfl, rfl, rfl⟩

/-- A step in a stage with no operation left advances to the next stage. -/
theorem State.stepsOn_of_advance (s u : State) (hr : s.pins.reset = false) (ho : s.ops = []) (hs : s.stage ≠ .emit)
    (hadvance : s.advance = u) (hstage : u.stage = s.stage.succ) (hinv : u.tick.PipelineInv) : s.StepsOn := by
  refine ⟨u.tick, ?_, hinv, s.advances_of_stage _ hs (.inr hstage)⟩
  rw [step_of_ops_nil s hr ho, hadvance]

/-! ### The invariant by its stage -/

theorem State.pipelineInv_normalize (s : State) (hg : s.stage = .normalize) :
    s.PipelineInv ↔ s.NormalizeStage := by simp [State.PipelineInv, hg]

theorem State.pipelineInv_build (s : State) (hg : s.stage = .build) : s.PipelineInv ↔ s.BuildStage := by
  simp [State.PipelineInv, hg]

theorem State.pipelineInv_checksum (s : State) (hg : s.stage = .checksum) : s.PipelineInv ↔ s.ChecksumStage := by
  simp [State.PipelineInv, hg]

theorem State.pipelineInv_emit (s : State) (hg : s.stage = .emit) :
    s.PipelineInv ↔ s.FramesReady ∧ s.k < 644 ∧ s.seq = (encodeFunction s.raw).take s.k := by
  simp [State.PipelineInv, hg]

theorem State.pipelineInv_done (s : State) (hg : s.stage = .done) :
    s.PipelineInv ↔ s.FramesReady ∧ s.k = 644 ∧ s.seq = encodeFunction s.raw := by
  simp [State.PipelineInv, hg]

/-! ### IDLE and DONE -/

theorem State.startAccepted_tick_pipelineInv (s : State) (c : PartialCommand) :
    (s.startAccepted c).tick.PipelineInv :=
  ⟨0, Nat.zero_le 10, rfl, fun h => absurd h (by decide)⟩

/-- The waiting block accepts a start or stays as it is (R185, R223). -/
theorem State.stepsOn_of_waiting (s : State) (hr : s.pins.reset = false) (h : s.PipelineInv)
    (hg : s.stage = .idle ∨ s.stage = .done) (ho : s.ops = []) : s.StepsOn := by
  have hadvance : s.advance = if s.pins.start then s.startAccepted s.pins.slots else s := by
    rcases hg with hg | hg <;> simp [State.advance, hg]
  have hemit : s.stage ≠ .emit := by rcases hg with hg | hg <;> simp [hg]
  have hsucc : s.stage.succ = .normalize := by rcases hg with hg | hg <;> simp [hg, Stage.succ]
  refine ⟨_, step_of_ops_nil s hr ho, ?_⟩
  rw [hadvance]
  cases s.pins.start with
  | true => exact ⟨s.startAccepted_tick_pipelineInv _, s.advances_of_stage _ hemit (.inr hsucc.symm)⟩
  | false => exact ⟨h, s.advances_of_stage _ hemit (.inl rfl)⟩

/-! ### NORMALIZE -/

theorem normalizeProgram_drop_slot (f : Field) :
    normalizeProgram.drop (f.slot + 1) = f.normInstr :: normalizeProgram.drop (f.slot + 2) := by
  cases f <;> rfl

theorem normInstr_mem_pipelineOperations (f : Field) : f.normInstr ∈ pipelineOperations := by
  cases f <;> decide

theorem State.stepsOn_of_normalize (s : State) (hr : s.pins.reset = false) (hg : s.stage = .normalize)
    (h : s.NormalizeStage) : s.StepsOn := by
  obtain ⟨j, hj, hops, hp⟩ := h
  have hemit : s.stage ≠ .emit := by simp [hg]
  have hperform (i : Instr) (u : State) (n : Nat) (hn : n ≤ 9)
      (ho : s.ops = programBytes (i :: normalizeProgram.drop (n + 1))) (hi : i ∈ pipelineOperations)
      (hx : exec i (s.setOps (programBytes (normalizeProgram.drop (n + 1)))) = .next u)
      (hup : u.p = normalizedUpTo n s.raw) : s.StepsOn := by
    obtain ⟨t, hstep, hstage, hraw, hrest, htp, -⟩ := step_of_program s u i _ hr ho hi hx
    refine ⟨t, hstep, ?_, s.advances_of_stage t hemit (.inl hstage)⟩
    exact (t.pipelineInv_normalize (hstage.trans hg)).mpr
      ⟨n + 1, by omega, hrest, fun _ => by rw [htp, hup, hraw]; rfl⟩
  rcases Nat.lt_or_ge j 1 with hj0 | hj1
  · obtain rfl : j = 0 := by omega
    exact hperform .loadDefaults _ 0 (by decide) hops (by decide) rfl rfl
  · obtain ⟨n, rfl⟩ := Nat.exists_eq_add_of_le' hj1
    have hp := hp hj1
    rcases Nat.lt_or_ge n 9 with hn | hn
    · obtain ⟨f, rfl⟩ := Field.exists_slot n hn
      rw [normalizeProgram_drop_slot] at hops
      exact hperform f.normInstr _ (f.slot + 1) hn hops (normInstr_mem_pipelineOperations f)
        (exec_normInstr f _) (State.norm_p _ f hp)
    · obtain rfl : n = 9 := by omega
      refine s.stepsOn_of_advance ((s.setStage .build).setOps (programBytes buildProgram)) hr hops hemit ?_ ?_ ?_
      · simp [State.advance, hg]
      · simp [hg, Stage.succ]
      · exact ⟨hp, 0, by decide, rfl, fun h => absurd h (by decide), fun h => absurd h (by decide)⟩

/-! ### BUILD -/

theorem State.buildA_holds (s : State) : Memory.holds s.buildA.fa (payloadA s.p ++ [0]) :=
  s.storeBytes_holds .A (payloadA s.p ++ [0])

theorem State.buildB_holds (s : State) : Memory.holds s.buildB.fb (payloadB s.p ++ [0]) := by
  rw [State.buildB_eq]
  exact s.storeBytes_holds .B (payloadB s.p ++ [0])

@[simp] theorem State.buildA_p (s : State) : s.buildA.p = s.p := State.storeBytes_p _ _ _ _

@[simp] theorem State.buildB_p (s : State) : s.buildB.p = s.p := by simp [State.buildB_eq]

@[simp] theorem State.buildB_t (s : State) : s.buildB.t = timerWord s.p := by simp [State.buildB_eq]

@[simp] theorem State.buildB_fa (s : State) : s.buildB.fa = s.fa := by simp [State.buildB_eq]

theorem State.stepsOn_of_build (s : State) (hr : s.pins.reset = false) (hg : s.stage = .build)
    (h : s.BuildStage) : s.StepsOn := by
  obtain ⟨hp, j, hj, hops, ha, hb⟩ := h
  have hemit : s.stage ≠ .emit := by simp [hg]
  obtain rfl | rfl | rfl : j = 0 ∨ j = 1 ∨ j = 2 := by omega
  · obtain ⟨t, hstep, hstage, hraw, hrest, htp, -, hta, -⟩ :=
      step_of_program s (s.setOps (programBytes [.buildB])).buildA .buildA [.buildB] hr hops (by decide) rfl
    refine ⟨t, hstep, (t.pipelineInv_build (hstage.trans hg)).mpr ?_, s.advances_of_stage t hemit (.inl hstage)⟩
    rw [State.buildA_p, State.setOps_p] at htp
    refine ⟨by rw [htp, hraw, hp], 1, by decide, hrest, fun _ => ?_, fun h => absurd h (by decide)⟩
    rw [hta, htp]
    exact State.buildA_holds _
  · obtain ⟨t, hstep, hstage, hraw, hrest, htp, htt, hta, htb⟩ :=
      step_of_program s (s.setOps (programBytes [])).buildB .buildB [] hr hops (by decide) rfl
    refine ⟨t, hstep, (t.pipelineInv_build (hstage.trans hg)).mpr ?_, s.advances_of_stage t hemit (.inl hstage)⟩
    rw [State.buildB_p, State.setOps_p] at htp
    refine ⟨by rw [htp, hraw, hp], 2, by decide, hrest, fun _ => ?_, fun _ => ⟨?_, ?_⟩⟩
    · rw [hta, htp, State.buildB_fa]
      exact ha (by decide)
    · rw [htb, htp]
      exact State.buildB_holds _
    · rw [htt, htp, State.buildB_t, State.setOps_p]
  · obtain ⟨hfb, hword⟩ := hb (by decide)
    refine s.stepsOn_of_advance ((s.setStage .checksum).setOps (programBytes checksumProgram)) hr hops hemit ?_ ?_ ?_
    · simp [State.advance, hg]
    · simp [hg, Stage.succ]
    · exact ⟨hp, hword, 0, by decide, rfl, ha (by decide), hfb⟩

/-! ### CHECKSUM -/

theorem State.csumA_holds (s : State) (p : Command) (h : Memory.holds s.fa (payloadA p ++ [0])) :
    Memory.holds s.csumA.fa (frameA p) := s.storeByte_csum_holds .A (payloadA p) 0 h

theorem State.csumB_holds (s : State) (p : Command) (h : Memory.holds s.fb (payloadB p ++ [0])) :
    Memory.holds s.csumB.fb (frameB p) := s.storeByte_csum_holds .B (payloadB p) 0 h

theorem State.stepsOn_of_checksum (s : State) (hr : s.pins.reset = false) (hg : s.stage = .checksum)
    (h : s.ChecksumStage) : s.StepsOn := by
  obtain ⟨hp, hword, j, hj, hops, ha, hb⟩ := h
  have hemit : s.stage ≠ .emit := by simp [hg]
  obtain rfl | rfl | rfl : j = 0 ∨ j = 1 ∨ j = 2 := by omega
  · obtain ⟨t, hstep, hstage, hraw, hrest, htp, htt, hta, htb⟩ :=
      step_of_program s (s.setOps (programBytes [.csumB])).csumA .csumA [.csumB] hr hops (by decide) rfl
    refine ⟨t, hstep, (t.pipelineInv_checksum (hstage.trans hg)).mpr ?_, s.advances_of_stage t hemit (.inl hstage)⟩
    replace htp : t.p = s.p := htp
    refine ⟨by rw [htp, hraw, hp], by rw [htt, htp]; exact hword, 1, by decide, hrest, ?_, ?_⟩
    · rw [hta, htp]
      exact State.csumA_holds _ _ ha
    · rw [htb, htp]
      exact hb
  · obtain ⟨t, hstep, hstage, hraw, hrest, htp, htt, hta, htb⟩ :=
      step_of_program s (s.setOps (programBytes [])).csumB .csumB [] hr hops (by decide) rfl
    refine ⟨t, hstep, (t.pipelineInv_checksum (hstage.trans hg)).mpr ?_, s.advances_of_stage t hemit (.inl hstage)⟩
    replace htp : t.p = s.p := htp
    refine ⟨by rw [htp, hraw, hp], by rw [htt, htp]; exact hword, 2, by decide, hrest, ?_, ?_⟩
    · rw [hta, htp]
      exact ha
    · rw [htb, htp]
      exact State.csumB_holds _ _ hb
  · refine s.stepsOn_of_advance (s.clearSeq.setStage .emit) hr hops hemit ?_ ?_ ?_
    · simp [State.advance, hg]
    · simp [hg, Stage.succ]
    · exact ⟨⟨hp, hword, hops, ha, hb⟩, Nat.zero_lt_succ 643, rfl⟩

/-! ### EMIT -/

theorem encodeFunction_length (c : PartialCommand) : (encodeFunction c).length = 644 := by
  rw [encodeFunction, sequenceOf_length, frameA_length, frameB_length]

/-- R168, R182: with the frames ready, the entry that an index names is that of the sequence of the captured command. -/
theorem State.FramesReady.getElem?_encodeFunction {s : State} (h : s.FramesReady) (k : Nat) (hk : k < 644) :
    (encodeFunction s.raw)[k]? = some (s.entryAt k) := by
  obtain ⟨hp, -, -, ha, hb⟩ := h
  have hA : s.loadBytes .A 20 = frameA s.p := State.loadBytes_of_holds s .A _ 20 (le_refl 20) ha
  have hB : s.loadBytes .B 19 = frameB s.p := State.loadBytes_of_holds s .B _ 19 (le_refl 19) hb
  rw [← s.sequenceOf_loadBytes_getElem? k hk, hA, hB, hp]
  rfl

/-- The words handed over grow by the entry that K names. -/
theorem State.FramesReady.take_succ {s : State} (h : s.FramesReady) (hk : s.k < 644) :
    (encodeFunction s.raw).take s.k ++ [s.outWord] = (encodeFunction s.raw).take (s.k + 1) := by
  rw [List.take_add_one, h.getElem?_encodeFunction s.k hk]
  rfl

/-- A taken word leads to the next index, and the last word to DONE with the whole sequence handed over. -/
theorem State.wordTaken_tick_pipelineInv (s : State) (hg : s.stage = .emit) (h : s.FramesReady) (hk : s.k < 644)
    (hseq : s.seq = (encodeFunction s.raw).take s.k) : s.wordTaken.tick.PipelineInv := by
  have hnext : s.seq ++ [s.outWord] = (encodeFunction s.raw).take (s.k + 1) := by rw [hseq, h.take_succ hk]
  rw [s.wordTaken_of_room hk]
  by_cases hlast : s.k = 643
  · rw [if_pos hlast]
    refine (State.pipelineInv_done _ rfl).mpr ⟨h, congrArg (· + 1) hlast, hnext.trans (List.take_of_length_le ?_)⟩
    rw [encodeFunction_length, hlast]
  · rw [if_neg hlast]
    refine (State.pipelineInv_emit _ ?_).mpr ⟨h, show s.k + 1 < 644 by omega, hnext⟩
    exact hg

theorem State.wordTaken_tick_advances (s : State) (hg : s.stage = .emit) (hk : s.k < 644) :
    s.Advances s.wordTaken.tick := by
  rw [s.wordTaken_of_room hk]
  refine ⟨?_, fun _ => .inr ⟨rfl, Nat.succ_le_of_lt hk, rfl⟩⟩
  by_cases hlast : s.k = 643
  · exact .inr ((if_pos hlast).trans (by rw [hg, Stage.succ]))
  · exact .inl (if_neg hlast)

theorem State.stepsOn_of_emit (s : State) (hr : s.pins.reset = false) (hg : s.stage = .emit)
    (h : s.FramesReady) (hk : s.k < 644) (hseq : s.seq = (encodeFunction s.raw).take s.k) : s.StepsOn := by
  have hadvance : s.advance = if s.pins.outReady then s.wordTaken else s := by simp [State.advance, hg]
  have hops : s.ops = [] := by
    obtain ⟨-, -, hops, -⟩ := h
    exact hops
  refine ⟨_, step_of_ops_nil s hr hops, ?_⟩
  rw [hadvance]
  cases s.pins.outReady with
  | false => exact ⟨(State.pipelineInv_emit s.tick hg).mpr ⟨h, hk, hseq⟩, .inl rfl, fun _ => .inl ⟨rfl, rfl⟩⟩
  | true => exact ⟨s.wordTaken_tick_pipelineInv hg h hk hseq, s.wordTaken_tick_advances hg hk⟩

/-- From every state of the pipeline a step without reset goes on, in order, into the invariant. -/
theorem State.PipelineInv.stepsOn {s : State} (h : s.PipelineInv) (hr : s.pins.reset = false) : s.StepsOn := by
  cases hg : s.stage with
  | idle => exact s.stepsOn_of_waiting hr h (.inl hg) (by simpa [State.PipelineInv, hg] using h)
  | normalize => exact s.stepsOn_of_normalize hr hg ((s.pipelineInv_normalize hg).mp h)
  | build => exact s.stepsOn_of_build hr hg ((s.pipelineInv_build hg).mp h)
  | checksum => exact s.stepsOn_of_checksum hr hg ((s.pipelineInv_checksum hg).mp h)
  | emit =>
    obtain ⟨hready, hk, hseq⟩ := (s.pipelineInv_emit hg).mp h
    exact s.stepsOn_of_emit hr hg hready hk hseq
  | done =>
    obtain ⟨⟨-, -, hops, -⟩, -, -⟩ := (s.pipelineInv_done hg).mp h
    exact s.stepsOn_of_waiting hr h (.inr hg) hops

end Sys2Proof.Machine
end

section
/-! The statements about the registers of the block (10_state.md). -/

namespace Sys2Proof.Machine

/-- Settles O57: a reset leads to IDLE with no operation left, and every other step is that of its stage. -/
theorem pipelineInvariantIsKept : Obligations.PipelineInvariantIsKept := by
  intro s h
  cases hr : s.pins.reset with
  | true => exact ⟨_, step_of_reset s hr, rfl⟩
  | false =>
    obtain ⟨t, hstep, hinv, -⟩ := h.stepsOn hr
    exact ⟨t, hstep, hinv⟩

/-- Settles O58, by the three things a step can do. -/
theorem structuralInvariantIsKept : Obligations.StructuralInvariantIsKept := by
  intro s t hs h
  rcases step_cases s t h with ⟨-, rfl⟩ | ⟨-, -, rfl⟩ | ⟨-, i, rest, u, -, hx, rfl⟩
  · exact State.reset_inv
  · exact hs.advance
  · exact exec_keeps_inv i (s.setOps rest) u hs hx

/-- Settles O7: the step of a stage is unique, and it is one that advances in order. -/
theorem stagesAdvanceInOrder : Obligations.StagesAdvanceInOrder := by
  intro s t h hr hstep
  obtain ⟨u, hu, -, hadvances⟩ := h.stepsOn hr
  obtain rfl : u = t := Host.Outcome.next.inj (hu.symm.trans hstep)
  exact hadvances

/-- Settles O22: LOAD.DEFAULTS clears SUBST, each NORM operation adds the bit of its invalid slot, and nothing after
NORMALIZE writes it. -/
theorem substReportsTheInvalidSlots : Obligations.SubstReportsTheInvalidSlots := by
  intro s hb
  have hsubst : s.encodeAll.subst =
      s.subst.map fun _ => Field.all.foldl (fun w f => w ||| substBit f (s.pins.slots.get f)) 0 := by
    rw [State.encodeAll_of_not_busy s hb, State.buildAndEmit_subst, State.normalizeAll_eq, State.foldl_norm_subst]
    exact Option.map_map _ _ _
  refine ⟨s.encodeAll, rfl, ?absent, ?present⟩
  case absent =>
    intro hnone
    rw [hsubst, hnone]
    rfl
  case present =>
    intro w hw
    refine ⟨_, by rw [hsubst, hw]; rfl, fun f => ?_⟩
    rw [foldl_substBit_getLsbD]
    simp [Field.mem_all, ← validFor_iff_inDomain]

/-- Settles O23. -/
theorem substIsReadByNoOperation : Obligations.SubstIsReadByNoOperation := by
  intro i s t x h
  obtain ⟨y, hy, hyx⟩ := exec_withSubst i s t x h
  exact ⟨t.withSubst y, hy, rfl, hyx⟩

/-- An emission in every state appends what SEQ has room for (log entry 5). -/
theorem State.emitAll_capped (s : State) (ds : List Duration) :
    s.emitAll ds = { s with seq := s.seq ++ ds.take (644 - s.k), k := s.k + min (644 - s.k) ds.length } := by
  rw [State.emitAll_eq, List.length_take]

theorem bitSymbol_eq (b : Bool) : bitSymbol b = [440, if b then 1300 else 440] := by cases b <;> rfl

/-- Settles O46: every emission is the emission of a list of entries. -/
theorem emissionStopsAtTheSequenceLength : Obligations.EmissionStopsAtTheSequenceLength := by
  intro s capped bits
  have hcapped (ds : List Duration) : s.emitAll ds = capped ds := s.emitAll_capped ds
  have hbits (v : Byte) : byteSymbols v = bits v := by simp only [byteSymbols, bitSymbol_eq, bits]
  refine ⟨?_, ?_, ?_, ?_⟩
  · intro x hx
    fin_cases hx <;> exact congrArg Host.Outcome.next (hcapped _)
  · intro b
    rw [← hcapped, ← bitSymbol_eq, ← State.emitBit_eq]
    rfl
  · intro v
    rw [← hcapped, ← hbits, ← State.emitByte_eq]
    rfl
  · intro f
    have hframe : frameSymbols (s.loadBytes f f.length) =
        (List.range f.length).flatMap fun i => bits (s.loadByte f i) := by
      simp only [frameSymbols, State.loadBytes, List.flatMap_map, hbits]
    rw [← hcapped, ← hframe, ← State.emitFrame_eq]
    exact if_pos (le_refl f.length)

/-- Settles O1: the reset state is the table of R38, register by register. -/
theorem resetStateHoldsTheTableValues : Obligations.ResetStateHoldsTheTableValues := by
  refine ⟨rfl, rfl, ?raw, rfl, rfl, rfl, rfl, rfl, rfl, rfl, rfl, rfl, rfl, fun _ _ => rfl, fun _ _ => rfl, ?subst, rfl,
    rfl⟩
  case raw => exact fun f => by cases f <;> rfl
  case subst => exact fun w hw => nomatch hw

/-- Settles O59. -/
theorem resetMeetsTheInvariants : Obligations.ResetMeetsTheInvariants := ⟨State.reset_inv, rfl⟩

end Sys2Proof.Machine
end

section
/-! SUPPORT. The operation words (30_encoding.md section 7; log entries 1 and 2): what the decoder reads from a row
number and an operand byte, forwards and backwards. -/

namespace Sys2Proof

theorem rowNumber_lt (i : Instr) : rowNumber i < 256 := by cases i <;> simp [rowNumber]

/-- The decoder reads two bytes, whatever stands after them. -/
theorem decode_eq_ok_iff (bs : List Byte) (i : Instr) (rest : List Byte) :
    decode bs = .ok (i, rest) ↔ ∃ v r : Byte, bs = v :: r :: rest ∧ decodeRow r.toNat v = .ok i := by
  match bs with
  | [] => simp [decode]
  | [_] => simp [decode]
  | v :: r :: bs => cases hrow : decodeRow r.toNat v <;> simp [decode, hrow, and_comm]

/-! ### The constant bits of the frame bytes -/

/-- R92: the constant bits of a frame byte stand where its mask says. -/
theorem const_and_mask_of_framePattern (i : Instr) (p : Pattern) (hp : framePattern i = some p) :
    p.const &&& p.mask = p.const := by
  cases i <;> cases hp <;> rfl

theorem operandByte_of_framePattern (i : Instr) (p : Pattern) (hp : framePattern i = some p) :
    operandByte i = p.const := by
  cases i <;> cases hp <;> rfl

/-! ### The rows without an operand -/

/-- A row number that names an operation without an operand is the number of that operation's row. -/
theorem rowNumber_of_plainRow (row : Nat) (i : Instr) (h : plainRow row = some i) : rowNumber i = row := by
  unfold plainRow at h
  split at h <;> cases h <;> rfl

/-- A row that names an operation without an operand is none of the rows that the decoder reads on its own. -/
theorem ne_of_plainRow (row : Nat) (i : Instr) (h : plainRow row = some i) :
    row ≠ 0 ∧ row ≠ 19 ∧ row ≠ 20 ∧ row ≠ 21 := by
  refine ⟨?_, ?_, ?_, ?_⟩ <;> rintro rfl <;> cases h

/-- A frame byte is read from every operand byte that carries its constant bits. -/
theorem decodeRow_of_pattern (row : Nat) (v : Byte) (i : Instr) (p : Pattern) (h : plainRow row = some i)
    (hp : framePattern i = some p) :
    decodeRow row v = if v &&& p.mask = p.const then .ok i else .error (.constantBits row v) := by
  obtain ⟨h0, h19, h20, h21⟩ := ne_of_plainRow row i h
  simp only [decodeRow, h0, h19, h20, h21, if_false, h, hp]

/-- Every other operation without an operand is read from its own operand byte only. -/
theorem decodeRow_of_no_pattern (row : Nat) (v : Byte) (i : Instr) (h : plainRow row = some i)
    (hp : framePattern i = none) :
    decodeRow row v = if v = operandByte i then .ok i else .error (.badOperand row v) := by
  obtain ⟨h0, h19, h20, h21⟩ := ne_of_plainRow row i h
  simp only [decodeRow, h0, h19, h20, h21, if_false, h, hp]

/-! ### Decode after encode -/

theorem decodeRow_operandByte_of_plainRow (i : Instr) (h : plainRow (rowNumber i) = some i) :
    decodeRow (rowNumber i) (operandByte i) = .ok i := by
  cases hp : framePattern i with
  | none => rw [decodeRow_of_no_pattern _ _ i h hp, if_pos rfl]
  | some p =>
    rw [decodeRow_of_pattern _ _ i p h hp, operandByte_of_framePattern i p hp,
      if_pos (const_and_mask_of_framePattern i p hp)]

/-- The row number and the operand byte of a well-formed operation name it. -/
theorem decodeRow_rowNumber_operandByte (i : Instr) (hi : i.wf = true) :
    decodeRow (rowNumber i) (operandByte i) = .ok i := by
  cases i
  case emitBit b => cases b <;> rfl
  case emitByte v => rfl
  case emitFrame f n =>
    obtain rfl : n = f.length := by simpa [Instr.wf] using hi
    cases f <;> rfl
  all_goals exact decodeRow_operandByte_of_plainRow _ rfl

/-! ### What the decoder reads -/

theorem mem_patternedRows_of_mostSpecificRow (v : Byte) (i : Instr) (h : mostSpecificRow v = some i) :
    i ∈ patternedRows := by
  obtain ⟨n, -, hn⟩ := List.exists_of_findSome?_eq_some h
  exact List.mem_of_find?_eq_some hn

theorem decodeBit_eq_ok (v : Byte) (i : Instr) (h : decodeBit v = .ok i) : ∃ b, i = .emitBit b := by
  unfold decodeBit at h
  split_ifs at h
  · exact ⟨false, (Except.ok.inj h).symm⟩
  · exact ⟨true, (Except.ok.inj h).symm⟩

theorem decodeFrame_eq_ok (v : Byte) (i : Instr) (h : decodeFrame v = .ok i) : ∃ f, i = .emitFrame f f.length := by
  unfold decodeFrame at h
  split_ifs at h
  · exact ⟨.A, (Except.ok.inj h).symm⟩
  · exact ⟨.B, (Except.ok.inj h).symm⟩

/-- Everything a row number and an operand byte can name: a frame byte by its constant bits (row number 0), an
emission with its operand, or the operation without an operand of the row. -/
theorem decodeRow_cases (row : Nat) (v : Byte) (i : Instr) (h : decodeRow row v = .ok i) :
    (row = 0 ∧ i ∈ patternedRows) ∨ (row = 19 ∧ ∃ b, i = .emitBit b) ∨ (row = 20 ∧ i = .emitByte v) ∨
    (row = 21 ∧ ∃ f, i = .emitFrame f f.length) ∨ plainRow row = some i := by
  by_cases h0 : row = 0
  · subst h0
    cases hv : mostSpecificRow v with
    | none => simp [decodeRow, hv] at h
    | some j =>
      obtain rfl : j = i := by simpa [decodeRow, hv] using h
      exact .inl ⟨rfl, mem_patternedRows_of_mostSpecificRow v j hv⟩
  by_cases h19 : row = 19
  · subst h19
    exact .inr (.inl ⟨rfl, decodeBit_eq_ok v i h⟩)
  by_cases h20 : row = 20
  · subst h20
    exact .inr (.inr (.inl ⟨rfl, (Except.ok.inj h).symm⟩))
  by_cases h21 : row = 21
  · subst h21
    exact .inr (.inr (.inr (.inl ⟨rfl, decodeFrame_eq_ok v i h⟩)))
  refine .inr (.inr (.inr (.inr ?_)))
  cases hrow : plainRow row with
  | none => simp [decodeRow, h0, h19, h20, h21, hrow] at h
  | some j =>
    cases hp : framePattern j with
    | none =>
      rw [decodeRow_of_no_pattern row v j hrow hp] at h
      split_ifs at h
      exact congrArg some (Except.ok.inj h)
    | some p =>
      rw [decodeRow_of_pattern row v j p hrow hp] at h
      split_ifs at h
      exact congrArg some (Except.ok.inj h)

theorem wf_of_mem_patternedRows : ∀ i ∈ patternedRows, i.wf = true := by decide

theorem wf_of_plainRow (row : Nat) (i : Instr) (h : plainRow row = some i) : i.wf = true := by
  cases i
  case emitFrame f n =>
    obtain rfl : 21 = row := rowNumber_of_plainRow row _ h
    cases h
  all_goals rfl

end Sys2Proof
end

section
/-! SUPPORT. The byte operations of the frames, performed one after the other (R92, log entry 9). -/

namespace Sys2Proof.Machine

theorem performAll_append (is js : List Instr) (s t : State) (h : performAll is s = .next t) :
    performAll (is ++ js) s = performAll js t := by
  induction is generalizing s with
  | nil => rw [Host.Outcome.next.inj h]; rfl
  | cons i is ih =>
    cases hx : exec i s with
    | next u =>
      simp only [performAll, hx] at h
      simp only [List.cons_append, performAll, hx, ih u h]
    | fault e => simp [performAll, hx] at h
    | refused r => simp [performAll, hx] at h

/-- R120: the byte operations of Frame A store its payload. -/
theorem performAll_frameA (s : State) :
    performAll [.fa0, .fa1, .fa2, .fa3, .fa4, .fa5to7, .fa8, .fa9to18] s =
      .next (s.storeBytes .A 0 (payloadA s.p)) := by
  simp [performAll, exec, execFa0, execFa1, execFa2, execFa3, execFa4, execFa5to7, execFa8, execFa9to18, payloadA,
    frameHeader, List.replicate]

/-- R126 to R129: the operations of the bytes before FB[6]. -/
theorem performAll_frameB_start (s : State) :
    performAll [.fb0, .fb1, .fb2, .fb3, .fb4, .fb5] s =
      .next (s.storeBytes .B 0 (frameHeader ++ [0, flagsMode s.p])) := rfl

/-- R130: of the three forms of FB[6], the one that the mode selects is written. -/
theorem performAll_fb6 (s : State) :
    performAll [.fb6Autodry, .fb6Coldhot, .fb6Fan] s = .next (s.storeBytes .B 6 [tempByte s.p]) := by
  cases hm : s.p.mode <;>
    simp [performAll, exec, execFb6Autodry, execFb6Coldhot, execFb6Fan, tempByte, hm]

/-- R131 to R135: the operations of the bytes after FB[6]. -/
theorem performAll_frameB_end (s : State) :
    performAll [.fb7, .fb8, .fb9, .fb10, .fb11, .fb12, .fb13to14, .fb15, .fb16, .fb17] s =
      .next (s.storeBytes .B 7 ([companionByte s.p, fanSwing s.p] ++ wordBytes s.t ++ payloadBTail s.p)) := by
  simp [performAll, exec, execFb7, execFb8, execFb9, execFb10, execFb11, execFb12, execFb13to14, execFb15, execFb16,
    execFb17, wordBytes, payloadBTail, List.replicate]

/-- R125: the byte operations of Frame B store its payload, where T holds the timer word. -/
theorem performAll_frameB (s : State) (ht : s.t = timerWord s.p) :
    performAll [.fb0, .fb1, .fb2, .fb3, .fb4, .fb5, .fb6Autodry, .fb6Coldhot, .fb6Fan, .fb7, .fb8, .fb9, .fb10, .fb11,
      .fb12, .fb13to14, .fb15, .fb16, .fb17] s = .next (s.storeBytes .B 0 (payloadB s.p)) := by
  have hrest := performAll_append _ [.fb7, .fb8, .fb9, .fb10, .fb11, .fb12, .fb13to14, .fb15, .fb16, .fb17] _ _
    (performAll_fb6 (s.storeBytes .B 0 (frameHeader ++ [0, flagsMode s.p])))
  rw [performAll_frameB_end] at hrest
  refine (performAll_append _ _ s _ (performAll_frameB_start s)).trans (hrest.trans ?_)
  simp [ht, payloadB, payloadBHead, frameHeader]

/-- A byte stored after a list or, at its offset, before the list: every byte reads the same. -/
theorem State.loadByte_storeBytes_concat (s : State) (f : FrameName) (bs : List Byte) (v : Byte) (i : Nat) :
    (s.storeBytes f 0 (bs ++ [v])).loadByte f i =
      ((s.storeByte f bs.length v).storeBytes f 0 bs).loadByte f i := by
  rw [State.storeBytes_append, State.storeBytes_cons, State.storeBytes_nil, State.loadByte_storeByte,
    State.loadByte_storeBytes, State.loadByte_storeBytes, State.loadByte_storeByte, Nat.zero_add]
  by_cases hi : bs.length = i
  · simp [hi]
  · simp [hi]

end Sys2Proof.Machine
end

section
/-! SUPPORT. ENCODE outside BUSY: the normalized command in P, Frame A, and the entries of SEQ. -/

namespace Sys2Proof.Machine

/-! ### Frame A -/

theorem State.foldl_norm_raw (s : State) (fs : List Field) : (fs.foldl State.norm s).raw = s.raw := by
  induction fs generalizing s with
  | nil => rfl
  | cons f fs ih => rw [List.foldl_cons, ih, State.norm_raw]

/-- R180: the first `n` NORM operations take the defaults to the normalized values of the first `n` slots. -/
theorem State.foldl_norm_take_p (s : State) (hp : s.p = Command.defaults) (n : Nat) (hn : n ≤ 9) :
    ((Field.all.take n).foldl State.norm s).p = normalizedUpTo n s.raw := by
  induction n with
  | zero => exact hp
  | succ n ih =>
    obtain ⟨f, rfl⟩ := Field.exists_slot n hn
    rw [List.take_add_one, Field.all_getElem?_slot, List.foldl_append]
    refine (State.norm_p _ f ?_).trans ?_
    · rw [ih (by omega), State.foldl_norm_raw]
    · rw [State.foldl_norm_raw]

/-- R182: stage NORMALIZE leaves the normalized command in P. -/
theorem State.normalizeAll_p (s : State) : s.normalizeAll.p = normalizedCommand s.raw :=
  s.loadDefaults.foldl_norm_take_p rfl 9 (le_refl 9)

theorem State.buildAndEmit_fa_holds (s : State) : Memory.holds s.buildAndEmit.fa (frameA s.p) := by
  have hfa : s.buildAndEmit.fa = ((s.setStage .build).buildA.buildB.setStage .checksum).csumA.fa := by
    simp only [State.buildAndEmit, State.sequence_eq, State.setStage_fa, State.csumB, State.storeByteB_fa]
  rw [hfa]
  apply State.csumA_holds
  rw [State.setStage_fa, State.buildB_fa]
  exact State.buildA_holds (s.setStage .build)

/-- R182: after ENCODE, Frame A is that of the normalized slots. -/
theorem State.encodeAll_loadBytes_A (s : State) (hb : s.busy = false) :
    s.encodeAll.loadBytes .A 20 = frameA (normalizedCommand s.pins.slots) := by
  have hfa := State.buildAndEmit_fa_holds ((s.capture s.pins.slots).setStage .normalize).normalizeAll
  rw [State.normalizeAll_p] at hfa
  rw [State.encodeAll_of_not_busy s hb]
  exact State.loadBytes_of_holds _ .A _ 20 (le_refl 20) hfa

/-- R62: the only byte of the payload that varies is FA[8], and the checksum with it. -/
theorem frameA_eq (p : Command) : frameA p =
    if p.fan = .nice then [0x11, 0xDA, 0x27, 0, 1, 0, 0, 0, 0x10, 0, 0, 0, 0, 0, 0, 0, 0, 0, 0, 0x23]
    else [0x11, 0xDA, 0x27, 0, 1, 0, 0, 0, 0, 0, 0, 0, 0, 0, 0, 0, 0, 0, 0, 0x13] := by
  by_cases hfan : p.fan = .nice
  · have hbyte : niceByte p = 0x10 := if_pos hfan
    rw [if_pos hfan, frameA, payloadA, hbyte]
    rfl
  · have hbyte : niceByte p = 0 := if_neg hfan
    rw [if_neg hfan, frameA, payloadA, hbyte]
    rfl

/-- R103: the fan register becomes "nice" for the exact symbol only. -/
theorem normalizedCommand_fan_eq_nice_iff (c : PartialCommand) :
    (normalizedCommand c).fan = .nice ↔ c.fan = some (.sym "nice") := by
  simp only [normalizedCommand]
  cases c.fan with
  | none => simp [slotValue, dfltFan]
  | some r =>
    cases r with
    | int z => by_cases hz : 1 ≤ z ∧ z ≤ 5 <;> simp [slotValue, fanOf, dfltFan, hz]
    | bool b => simp [slotValue, fanOf, dfltFan]
    | sym x => simp only [slotValue, fanOf]; split_ifs <;> simp_all [dfltFan]
    | other => simp [slotValue, fanOf, dfltFan]

/-! ### The entries of the sequence -/

theorem State.sequence_seq_getElem? (s : State) (k : Nat) (hk : k < 644) :
    s.sequence.seq[k]? = some (s.entryAt k) := by
  rw [State.sequence_eq]
  exact s.sequenceOf_loadBytes_getElem? k hk

/-- R180: outside BUSY, ENCODE leaves in SEQ what SEQUENCE emits for some state of the block. -/
theorem State.encodeAll_seq_eq_sequence (s : State) (hb : s.busy = false) :
    ∃ u : State, s.encodeAll.seq = u.sequence.seq := by
  rw [State.encodeAll_of_not_busy s hb, State.buildAndEmit, State.setStage_seq]
  exact ⟨_, rfl⟩

theorem State.frameEntry_of_even (s : State) (f : FrameName) (m : Nat) (hm : m % 2 = 0) : s.frameEntry f m = 440 :=
  if_pos hm

theorem State.frameEntry_eq_or (s : State) (f : FrameName) (m : Nat) :
    s.frameEntry f m = 440 ∨ s.frameEntry f m = 1300 := by
  unfold State.frameEntry
  split_ifs
  · exact .inl rfl
  · exact .inr rfl
  · exact .inl rfl

/-- The six entries of the two markers that are neither 440 nor a bit's space (R86). -/
def markerIndexes : List Nat := [11, 12, 13, 335, 336, 337]

/-- R168: outside those six, an entry is 440 or an entry of a frame at an index of the same parity. -/
theorem State.entryAt_of_not_marker (s : State) (k : Nat) (hk : k < 644) (hm : k ∉ markerIndexes) :
    s.entryAt k = 440 ∨ ∃ f m, m % 2 = k % 2 ∧ s.entryAt k = s.frameEntry f m := by
  simp only [markerIndexes, List.mem_cons, List.not_mem_nil, or_false, not_or] at hm
  have hzone : k ≤ 9 ∨ (14 ≤ k ∧ k ≤ 333) ∨ (338 ≤ k ∧ k ≤ 641) ∨ k = 10 ∨ k = 334 ∨ k = 642 ∨ k = 643 := by omega
  rcases hzone with h | h | h | rfl | rfl | rfl | rfl
  case inl =>
    left
    interval_cases k <;> rfl
  case inr.inl =>
    refine .inr ⟨.A, k - 14, by omega, ?_⟩
    rw [State.entryAt, if_neg (by omega), if_neg (by omega), if_pos (by omega)]
  case inr.inr.inl =>
    refine .inr ⟨.B, k - 338, by omega, ?_⟩
    rw [State.entryAt, if_neg (by omega), if_neg (by omega), if_neg (by omega), if_neg (by omega), if_pos (by omega)]
  all_goals exact .inl rfl

/-- R86: the marks. -/
theorem State.entryAt_of_even (s : State) (k : Nat) (hk : k < 644) (hm : k ∉ markerIndexes) (heven : k % 2 = 0) :
    s.entryAt k = 440 := by
  rcases s.entryAt_of_not_marker k hk hm with h | ⟨f, m, hpar, h⟩
  · exact h
  · rw [h, s.frameEntry_of_even f m (hpar.trans heven)]

/-- R86: the marks and the spaces. -/
theorem State.entryAt_eq_or (s : State) (k : Nat) (hk : k < 644) (hm : k ∉ markerIndexes) :
    s.entryAt k = 440 ∨ s.entryAt k = 1300 := by
  rcases s.entryAt_of_not_marker k hk hm with h | ⟨f, m, -, h⟩
  · exact .inl h
  · rw [h]
    exact s.frameEntry_eq_or f m

end Sys2Proof.Machine
end

section
/-! The statements about the encoding (30_encoding.md). -/

namespace Sys2Proof.Machine

/-- Settles O8: the row number fits a byte, and with the operand byte it names the operation. -/
theorem decodeInvertsEncode : Obligations.DecodeInvertsEncode := by
  intro i rest hi
  refine (decode_eq_ok_iff _ i rest).mpr ⟨operandByte i, BitVec.ofNat 8 (rowNumber i), rfl, ?_⟩
  rw [BitVec.toNat_ofNat, Nat.mod_eq_of_lt (rowNumber_lt i)]
  exact decodeRow_rowNumber_operandByte i hi

/-- Settles O9, by the things that a row number and an operand byte can name. -/
theorem decodedOperationsAreWellFormed : Obligations.DecodedOperationsAreWellFormed := by
  intro bs i rest h
  obtain ⟨v, r, hbs, hrow⟩ := (decode_eq_ok_iff bs i rest).mp h
  suffices hread : i.wf = true ∧ (r.toNat = 0 ∨ r.toNat = rowNumber i) by
    obtain ⟨hwf, hnumber⟩ := hread
    exact ⟨hwf, v, r, hbs, hnumber⟩
  rcases decodeRow_cases r.toNat v i hrow with
    ⟨hr, hi⟩ | ⟨hr, b, rfl⟩ | ⟨hr, rfl⟩ | ⟨hr, f, rfl⟩ | hplain
  · exact ⟨wf_of_mem_patternedRows i hi, .inl hr⟩
  · exact ⟨rfl, .inr hr⟩
  · exact ⟨rfl, .inr hr⟩
  · exact ⟨beq_self_eq_true f.length, .inr hr⟩
  · exact ⟨wf_of_plainRow _ i hplain, .inr (rowNumber_of_plainRow _ i hplain).symm⟩

/-- Settles O34: a build stores the payload and then the placeholder, its byte operations store the payload over the
placeholder. -/
theorem buildsAreTheirByteOperations : Obligations.BuildsAreTheirByteOperations := by
  refine ⟨fun s => ?frameA, fun s => ?frameB⟩
  case frameA =>
    exact ⟨_, _, rfl, performAll_frameA (s.storeByte .A 19 0), s.loadByte_storeBytes_concat .A (payloadA s.p) 0⟩
  case frameB =>
    refine ⟨s.buildB, _, rfl, performAll_frameB ((s.setT (timerWord s.p)).storeByte .B 18 0) rfl, ?_, fun i => ?_⟩
    · simp
    · rw [State.buildB_eq, ← State.storeBytes_setT]
      exact (s.setT (timerWord s.p)).loadByte_storeBytes_concat .B (payloadB s.p) 0 i

/-- Settles O40. -/
theorem frameATakesTwoValues : Obligations.FrameATakesTwoValues := by
  intro s hb
  refine ⟨s.encodeAll, rfl, ?_⟩
  rw [State.encodeAll_loadBytes_A s hb, frameA_eq]
  simp only [normalizedCommand_fan_eq_nice_iff]

/-- Settles O50: the six entries of the markers are read off, every other index has its entry by parity. -/
theorem marksAndSpacesAlternate : Obligations.MarksAndSpacesAlternate := by
  intro s hb
  obtain ⟨u, hu⟩ := State.encodeAll_seq_eq_sequence s hb
  refine ⟨s.encodeAll, rfl, fun k hk => ?_⟩
  rw [hu, u.sequence_seq_getElem? k hk]
  by_cases hm : k ∈ markerIndexes
  · fin_cases hm <;> rfl
  · have hne := hm
    simp only [markerIndexes, List.mem_cons, List.not_mem_nil, or_false, not_or] at hne
    rw [if_neg (by omega), if_neg (by omega), if_neg (by omega)]
    split_ifs with heven
    · rw [u.entryAt_of_even k hk hm heven]
    · simpa only [Option.some.injEq] using u.entryAt_eq_or k hk hm

/-- Settles O10: the words are those of their operations. -/
theorem writtenWordsDecode : Obligations.WrittenWordsDecode :=
  ⟨decodeInvertsEncode .normMode [] rfl, decodeInvertsEncode .fa0 [] rfl, decodeInvertsEncode .fb6Autodry [] rfl,
    decodeInvertsEncode (.emitByte 0x5A) [] rfl, decodeInvertsEncode (.emitFrame .B 19) [] rfl,
    decodeInvertsEncode .stop [] rfl⟩

end Sys2Proof.Machine
end

section
/-! SUPPORT. The NORM operations by the slot they read (R110), and ENCODE as a function of the normalized slots
(R182). -/

namespace Sys2Proof.Machine

/-! ### The contract of a NORM operation -/

/-- R110: what a NORM operation leaves of the state, by its slot. `read` and `write` are those of its register. -/
structure State.Normalizes {α : Type} (s t : State) (f : Field) (slot : Slot) (valueOf : Raw → Option α) (dflt : α)
    (read : Command → α) (write : Command → α → Command) : Prop where
  frame : t = { s with p := write s.p (read t.p), subst := t.subst }
  absent : slot = none → t = s
  valid : ∀ r v, slot = some r → valueOf r = some v → read t.p = v ∧ t.subst = s.subst
  invalid : ∀ r, slot = some r → ¬ inDomain f r → read t.p = dflt ∧ t.subst = s.subst.map (· ||| 1#9 <<< f.slot)

/-- Every NORM operation meets the contract of its register. -/
theorem State.normField_normalizes {α : Type} (s : State) (f : Field) (slot : Slot) (valueOf : Raw → Option α) (dflt : α)
    (read : Command → α) (write : Command → α → Command) (hread : ∀ p v, read (write p v) = v)
    (hwrite : ∀ p, write p (read p) = p) (hvalid : ∀ r, validFor f r = (valueOf r).isSome) :
    s.Normalizes (s.normField f slot valueOf dflt write) f slot valueOf dflt read write := by
  have hdomain (r : Raw) : inDomain f r ↔ (valueOf r).isSome = true := by rw [← validFor_iff_inDomain, hvalid]
  rcases s.normField_cases f slot valueOf dflt write with ⟨rfl, ht⟩ | ⟨r, v, rfl, hv, ht⟩ | ⟨r, rfl, hv, ht⟩
  · rw [ht]
    exact ⟨by rw [hwrite], fun _ => rfl, nofun, nofun⟩
  · rw [ht]
    refine ⟨by rw [State.setP_p, hread]; rfl, nofun, ?_, ?_⟩
    · rintro _ w ⟨⟩ hw
      exact ⟨(hread s.p v).trans (Option.some.inj (hv.symm.trans hw)), rfl⟩
    · rintro _ ⟨⟩ hout
      exact absurd ((hdomain r).mpr (by rw [hv]; rfl)) hout
  · rw [ht]
    refine ⟨by rw [State.reportSubst_p, State.setP_p, hread]; rfl, nofun, ?_, ?_⟩
    · rintro _ w ⟨⟩ hw
      exact absurd (hv.symm.trans hw) nofun
    · rintro _ ⟨⟩ -
      exact ⟨hread s.p dflt, rfl⟩

/-- The contract of a register whose domain is an interval of integers. -/
theorem State.Normalizes.interval {lo hi : Int} {s t : State} {f : Field} {slot : Slot}
    {valueOf : Raw → Option { z : Int // lo ≤ z ∧ z ≤ hi }} {dflt : { z : Int // lo ≤ z ∧ z ≤ hi }}
    {read : Command → { z : Int // lo ≤ z ∧ z ≤ hi }} {write : Command → { z : Int // lo ≤ z ∧ z ≤ hi } → Command}
    (h : s.Normalizes t f slot valueOf dflt read write)
    (hvalue : ∀ z (hz : lo ≤ z ∧ z ≤ hi), valueOf (.int z) = some ⟨z, hz⟩)
    (hdomain : ∀ r, inDomain f r → ∃ z, r = .int z ∧ lo ≤ z ∧ z ≤ hi) :
    t = { s with p := write s.p (read t.p), subst := t.subst } ∧ (slot = none → t = s) ∧
    (∀ z, slot = some (.int z) → lo ≤ z → z ≤ hi → (read t.p).val = z ∧ t.subst = s.subst) ∧
    (∀ r, slot = some r → (∀ z, r = .int z → z < lo ∨ hi < z) →
      (read t.p).val = dflt.val ∧ t.subst = s.subst.map (· ||| 1#9 <<< f.slot)) := by
  refine ⟨h.frame, h.absent, fun z hslot hlo hhi => ?_, fun r hslot hout => ?_⟩
  · obtain ⟨hp, hsubst⟩ := h.valid _ _ hslot (hvalue z ⟨hlo, hhi⟩)
    exact ⟨congrArg Subtype.val hp, hsubst⟩
  · have hnot : ¬ inDomain f r := fun hr => by
      obtain ⟨z, hz, hlo, hhi⟩ := hdomain r hr
      have := hout z hz
      omega
    obtain ⟨hp, hsubst⟩ := h.invalid r hslot hnot
    exact ⟨congrArg Subtype.val hp, hsubst⟩

/-- The contract of a boolean register. -/
theorem State.Normalizes.boolean {s t : State} {f : Field} {slot : Slot} {read : Command → Bool}
    {write : Command → Bool → Command} (h : s.Normalizes t f slot boolOf dfltBool read write)
    (hdomain : ∀ r, inDomain f r → ∃ b, r = .bool b) :
    t = { s with p := write s.p (read t.p), subst := t.subst } ∧ (slot = none → t = s) ∧
    (∀ b, slot = some (.bool b) → read t.p = b ∧ t.subst = s.subst) ∧
    (∀ r, slot = some r → (∀ b, r ≠ .bool b) →
      read t.p = false ∧ t.subst = s.subst.map (· ||| 1#9 <<< f.slot)) := by
  refine ⟨h.frame, h.absent, fun b hslot => h.valid _ b hslot rfl, fun r hslot hne => h.invalid r hslot fun hr => ?_⟩
  obtain ⟨b, hb⟩ := hdomain r hr
  exact hne b hb

/-! ### The registers after a NORM operation, and the order of two -/

/-- R110: what a register holds after its NORM operation, from the slot and what it held before. -/
def registerAfter {α : Type} (valueOf : Raw → Option α) (dflt : α) : Slot → α → α
  | none, old => old
  | some r, _ => (valueOf r).getD dflt

/-- A register of a field at the operation of a field: changed where the two are the same. -/
def changedAt {α : Type} (own f : Field) (change : α → α) (old : α) : α := if f = own then change old else old

theorem changedAt_comm {α : Type} (own f g : Field) (change : α → α) (old : α) :
    changedAt own g change (changedAt own f change old) = changedAt own f change (changedAt own g change old) := by
  unfold changedAt
  split_ifs <;> rfl

/-- The registers after the NORM operation of a field: its own register by its own slot, every other as it was. -/
def Command.norm (p : Command) (c : PartialCommand) (f : Field) : Command where
  temperature := changedAt .temperature f (registerAfter temperatureOf dfltTemperature c.temperature) p.temperature
  autotemp := changedAt .autotemp f (registerAfter autotempOf dfltAutotemp c.autotemp) p.autotemp
  fan := changedAt .fan f (registerAfter fanOf dfltFan c.fan) p.fan
  swing := changedAt .swing f (registerAfter boolOf dfltBool c.swing) p.swing
  state := changedAt .state f (registerAfter boolOf dfltBool c.state) p.state
  mode := changedAt .mode f (registerAfter modeOf dfltMode c.mode) p.mode
  ontimer := changedAt .ontimer f (registerAfter timerOf dfltTimer c.ontimer) p.ontimer
  offtimer := changedAt .offtimer f (registerAfter timerOf dfltTimer c.offtimer) p.offtimer
  streamer := changedAt .streamer f (registerAfter boolOf dfltBool c.streamer) p.streamer

theorem State.normField_p {α : Type} (s : State) (f : Field) (slot : Slot) (valueOf : Raw → Option α) (dflt : α)
    (write : Command → α → Command) (old : α) (hold : write s.p old = s.p) :
    (s.normField f slot valueOf dflt write).p = write s.p (registerAfter valueOf dflt slot old) := by
  rcases s.normField_cases f slot valueOf dflt write with ⟨rfl, ht⟩ | ⟨r, v, rfl, hv, ht⟩ | ⟨r, rfl, hv, ht⟩
  · rw [ht, registerAfter, hold]
  · rw [ht, registerAfter, hv, State.setP_p, Option.getD_some]
  · rw [ht, registerAfter, hv, State.reportSubst_p, State.setP_p, Option.getD_none]

theorem State.norm_p_eq (s : State) (f : Field) : (s.norm f).p = s.p.norm s.raw f := by
  cases f <;> exact State.normField_p _ _ _ _ _ _ _ rfl

/-- The whole effect of a NORM operation: a function of RAW on P, and one on SUBST. -/
theorem State.norm_eq (s : State) (f : Field) :
    s.norm f =
      { s with p := s.p.norm s.raw f, subst := s.subst.map (· ||| substBit f (s.raw.get f)) } := by
  have hframe : s.norm f = { s with p := (s.norm f).p, subst := (s.norm f).subst } := by
    cases f <;> unfold State.norm <;> exact State.normField_frame _ _ _ _ _ _
  rw [hframe, State.norm_p_eq, State.norm_subst]

/-- A register is written by one operation only, so two operations act on it in either order alike. -/
theorem Command.norm_comm (p : Command) (c : PartialCommand) (f g : Field) :
    (p.norm c f).norm c g = (p.norm c g).norm c f := by
  simp only [Command.norm, Command.mk.injEq]
  exact ⟨changedAt_comm _ _ _ _ _, changedAt_comm _ _ _ _ _, changedAt_comm _ _ _ _ _, changedAt_comm _ _ _ _ _,
    changedAt_comm _ _ _ _ _, changedAt_comm _ _ _ _ _, changedAt_comm _ _ _ _ _, changedAt_comm _ _ _ _ _,
    changedAt_comm _ _ _ _ _⟩

/-- R110, R205: two NORM operations in either order. -/
theorem State.norm_comm (s : State) (f g : Field) : (s.norm f).norm g = (s.norm g).norm f := by
  have hsubst (x y : BitVec 9) : s.subst.map ((· ||| y) ∘ (· ||| x)) = s.subst.map ((· ||| x) ∘ (· ||| y)) :=
    congrArg (s.subst.map ·) (funext fun w => by simp only [Function.comp_apply, BitVec.or_assoc, BitVec.or_comm x y])
  simp only [State.norm_eq, Command.norm_comm s.p s.raw f g, Option.map_map, hsubst (substBit f _)]

/-! ### ENCODE as a function of the normalized slots -/

/-- R112: a register has the same value, its default, for an absent slot and for an invalid raw value. -/
theorem slotValue_of_invalid {α : Type} {f : Field} {slot : Slot} {r : Raw} (hr : ¬ inDomain f r) (hslot : slot = some r)
    (valueOf : Raw → Option α) (dflt : α) (hvalid : ∀ q, validFor f q = (valueOf q).isSome) :
    slotValue valueOf dflt none = slotValue valueOf dflt slot := by
  rw [← validFor_iff_inDomain, hvalid, Option.not_isSome_iff_eq_none] at hr
  simp only [hslot, slotValue, hr, Option.getD_none]

/-- R112: the slots with an invalid one emptied normalize alike. -/
theorem normalizedCommand_set_none (c : PartialCommand) (f : Field) (r : Raw) (hr : ¬ inDomain f r)
    (hget : c.get f = some r) : normalizedCommand (c.set f none) = normalizedCommand c := by
  cases f <;> simp only [normalizedCommand, PartialCommand.set] <;> congr 1 <;>
    exact slotValue_of_invalid hr hget _ _ fun _ => rfl

@[simp] theorem State.buildAndEmit_p (s : State) : s.buildAndEmit.p = s.p := by
  simp [State.buildAndEmit, State.sequence_eq, State.csumA, State.csumB, State.buildB_eq, State.buildA]

theorem State.buildAndEmit_fb_holds (s : State) : Memory.holds s.buildAndEmit.fb (frameB s.p) := by
  have hfb : s.buildAndEmit.fb = ((s.setStage .build).buildA.buildB.setStage .checksum).csumA.csumB.fb := by
    simp only [State.buildAndEmit, State.sequence_eq, State.setStage_fb]
  have hbuilt := State.buildB_holds (s.setStage .build).buildA
  rw [State.buildA_p, State.setStage_p] at hbuilt
  rw [hfb]
  apply State.csumB_holds
  rw [State.csumA, State.storeByteA_fb, State.setStage_fb]
  exact hbuilt

/-- R170: what SEQUENCE hands over is the sequence of the frames, which stand unchanged when the stage is DONE. -/
theorem State.sequence_setStage_seq (s : State) (g : Stage) :
    (s.sequence.setStage g).seq =
      sequenceOf ((s.sequence.setStage g).loadBytes .A 20) ((s.sequence.setStage g).loadBytes .B 19) := by
  rw [State.sequence_eq]
  rfl

theorem State.buildAndEmit_seq (s : State) :
    s.buildAndEmit.seq = sequenceOf (s.buildAndEmit.loadBytes .A 20) (s.buildAndEmit.loadBytes .B 19) :=
  State.sequence_setStage_seq _ .done

/-- R182: outside BUSY, ENCODE leaves P, the frames and SEQ as functions of the normalized slots. -/
theorem State.encodeAll_of_slots (s : State) (hb : s.busy = false) :
    s.encodeAll.p = normalizedCommand s.pins.slots ∧
    s.encodeAll.loadBytes .A 20 = frameA (normalizedCommand s.pins.slots) ∧
    s.encodeAll.loadBytes .B 19 = frameB (normalizedCommand s.pins.slots) ∧
    s.encodeAll.seq = encodeFunction s.pins.slots := by
  have hA := s.encodeAll_loadBytes_A hb
  have hB := State.buildAndEmit_fb_holds ((s.capture s.pins.slots).setStage .normalize).normalizeAll
  rw [State.normalizeAll_p] at hB
  rw [State.encodeAll_of_not_busy s hb] at hA ⊢
  replace hB := State.loadBytes_of_holds _ .B _ 19 (le_refl 19) hB
  refine ⟨?_, hA, hB, ?_⟩
  · rw [State.buildAndEmit_p, State.normalizeAll_p]
    rfl
  · rw [State.buildAndEmit_seq, hA, hB]
    rfl

/-- Bytes that are read alike as a list are read alike one by one. -/
theorem State.loadByte_eq_of_loadBytes_eq {s t : State} {f : FrameName} {n : Nat}
    (h : s.loadBytes f n = t.loadBytes f n) (i : Nat) (hi : i < n) : s.loadByte f i = t.loadByte f i :=
  List.map_inj_left.mp h i (List.mem_range.mpr hi)

end Sys2Proof.Machine
end

section
/-! The statements about the normalizer (40_normalizer.md). -/

namespace Sys2Proof.Machine

/-- Settles O14: the contract of a register with the domain 14 to 30. -/
theorem normTemperatureWritesValueOrDefault : Obligations.NormTemperatureWritesValueOrDefault := fun s =>
  ⟨s.normTemperature, rfl,
    (s.normField_normalizes .temperature s.raw.temperature temperatureOf dfltTemperature Command.temperature
      (fun p v => { p with temperature := v }) (fun _ _ => rfl) (fun _ => rfl) fun _ => rfl).interval
      (fun _ hz => dif_pos hz) fun _ h => h⟩

/-- Settles O15: the contract of a register with the domain -5 to 5. -/
theorem normAutotempWritesValueOrDefault : Obligations.NormAutotempWritesValueOrDefault := fun s =>
  ⟨s.normAutotemp, rfl,
    (s.normField_normalizes .autotemp s.raw.autotemp autotempOf dfltAutotemp Command.autotemp
      (fun p v => { p with autotemp := v }) (fun _ _ => rfl) (fun _ => rfl) fun _ => rfl).interval
      (fun _ hz => dif_pos hz) fun _ h => h⟩

/-- Settles O16: the domain is an interval and three symbols. -/
theorem normFanWritesValueOrDefault : Obligations.NormFanWritesValueOrDefault := by
  intro s
  have h : s.Normalizes s.normFan .fan s.raw.fan fanOf dfltFan Command.fan (fun p v => { p with fan := v }) :=
    s.normField_normalizes _ _ _ _ _ _ (fun _ _ => rfl) (fun _ => rfl) fun _ => rfl
  refine ⟨s.normFan, rfl, h.frame, h.absent, fun z hslot hlo hhi => ?integer, fun hslot => h.valid _ .auto hslot rfl,
    fun hslot => h.valid _ .quiet hslot rfl, fun hslot => h.valid _ .nice hslot rfl,
    fun r hslot hint hauto hquiet hnice => h.invalid r hslot ?outside⟩
  case integer =>
    obtain ⟨hp, hsubst⟩ := h.valid _ (.speed ⟨z, hlo, hhi⟩) hslot (dif_pos ⟨hlo, hhi⟩)
    exact ⟨⟨_, hp, rfl⟩, hsubst⟩
  case outside =>
    rintro (⟨z, hz, hlo, hhi⟩ | hr | hr | hr)
    · have := hint z hz
      omega
    · exact hauto hr
    · exact hquiet hr
    · exact hnice hr

/-- Settles O17: the contract of a boolean register, three times. -/
theorem normBooleansWriteValueOrDefault : Obligations.NormBooleansWriteValueOrDefault :=
  ⟨fun s => ⟨s.normSwing, rfl,
    (s.normField_normalizes .swing s.raw.swing boolOf dfltBool Command.swing (fun p v => { p with swing := v })
      (fun _ _ => rfl) (fun _ => rfl) fun _ => rfl).boolean fun _ h => h⟩,
  fun s => ⟨s.normState, rfl,
    (s.normField_normalizes .state s.raw.state boolOf dfltBool Command.state (fun p v => { p with state := v })
      (fun _ _ => rfl) (fun _ => rfl) fun _ => rfl).boolean fun _ h => h⟩,
  fun s => ⟨s.normStreamer, rfl,
    (s.normField_normalizes .streamer s.raw.streamer boolOf dfltBool Command.streamer
      (fun p v => { p with streamer := v }) (fun _ _ => rfl) (fun _ => rfl) fun _ => rfl).boolean fun _ h => h⟩⟩

/-- Settles O18: the domain is five symbols. -/
theorem normModeWritesValueOrDefault : Obligations.NormModeWritesValueOrDefault := by
  intro s
  have h : s.Normalizes s.normMode .mode s.raw.mode modeOf dfltMode Command.mode (fun p v => { p with mode := v }) :=
    s.normField_normalizes _ _ _ _ _ _ (fun _ _ => rfl) (fun _ => rfl) fun _ => rfl
  have hsymbols : ∀ x ∈ [("auto", Mode.auto), ("dry", .dry), ("cold", .cold), ("hot", .hot), ("fan", .fan)],
      modeOf (.sym x.1) = some x.2 := by decide
  refine ⟨s.normMode, rfl, h.frame, h.absent, fun x hx hslot => h.valid _ x.2 hslot (hsymbols x hx),
    fun r hslot hne => h.invalid r hslot ?_⟩
  simpa [inDomain] using hne

/-- Settles O19: the contract of a register with the domain 0 to 12, twice. -/
theorem normTimersWriteValueOrDefault : Obligations.NormTimersWriteValueOrDefault :=
  ⟨fun s => ⟨s.normOntimer, rfl,
    (s.normField_normalizes .ontimer s.raw.ontimer timerOf dfltTimer Command.ontimer (fun p v => { p with ontimer := v })
      (fun _ _ => rfl) (fun _ => rfl) fun _ => rfl).interval (fun _ hz => dif_pos hz) fun _ h => h⟩,
  fun s => ⟨s.normOfftimer, rfl,
    (s.normField_normalizes .offtimer s.raw.offtimer timerOf dfltTimer Command.offtimer
      (fun p v => { p with offtimer := v }) (fun _ _ => rfl) (fun _ => rfl) fun _ => rfl).interval
      (fun _ hz => dif_pos hz) fun _ h => h⟩⟩

/-- Settles O20: the operations are those of two fields, and each register is written by one of them at most. -/
theorem normOperationsCommute : Obligations.NormOperationsCommute := by
  intro i hi j hj s
  obtain ⟨f, -, rfl⟩ := List.mem_map.mp (show i ∈ Field.all.map Field.normInstr from hi)
  obtain ⟨g, -, rfl⟩ := List.mem_map.mp (show j ∈ Field.all.map Field.normInstr from hj)
  refine ⟨s.norm f, s.norm g, (s.norm f).norm g, exec_normInstr f s, exec_normInstr g _, exec_normInstr g s, ?_⟩
  rw [exec_normInstr, State.norm_comm]

/-- Settles O21: ENCODE depends on the slots through their normalized values, which do not tell an invalid raw value
from an absent slot. -/
theorem invalidSlotActsAsAbsent : Obligations.InvalidSlotActsAsAbsent := by
  intro s u f r hs hu hr hget hslots
  have hsame : normalizedCommand u.pins.slots = normalizedCommand s.pins.slots := by
    rw [hslots, normalizedCommand_set_none _ f r hr hget]
  obtain ⟨hsp, hsA, hsB, hsseq⟩ := s.encodeAll_of_slots hs
  obtain ⟨hup, huA, huB, huseq⟩ := u.encodeAll_of_slots hu
  rw [hsame] at hup huA huB
  refine ⟨s.encodeAll, u.encodeAll, rfl, rfl, hsp.trans hup.symm, ?_,
    State.loadByte_eq_of_loadBytes_eq (hsA.trans huA.symm), State.loadByte_eq_of_loadBytes_eq (hsB.trans huB.symm)⟩
  rw [hsseq, huseq, encodeFunction, encodeFunction, hsame]

/-- Settles O13: LOAD.DEFAULTS evaluates on every state. -/
theorem loadDefaultsWritesTheDefaults : Obligations.LoadDefaultsWritesTheDefaults := fun s =>
  ⟨s.loadDefaults, rfl, rfl, rfl, rfl, rfl, rfl, rfl, rfl, rfl, rfl, s.clearSubst_subst, rfl⟩

end Sys2Proof.Machine
end

section
/-! SUPPORT. The dynamic bytes and the timer word in plain arithmetic (R71 to R80): what each expression of the builder
is as a number. -/

namespace Sys2Proof.Machine

/-! ### Fields side by side in a word -/

/-- A field placed above the bits in use: the two do not overlap, so `or` adds them. -/
theorem toNat_or_shiftLeft {w : Nat} (x y : BitVec w) (k : Nat) (hx : x.toNat < 2 ^ k) (hy : 2 ^ k * y.toNat < 2 ^ w) :
    (x ||| y <<< k).toNat = x.toNat + 2 ^ k * y.toNat := by
  have hshift : (y <<< k).toNat = 2 ^ k * y.toNat := by
    rw [BitVec.toNat_shiftLeft, Nat.shiftLeft_eq, Nat.mul_comm, Nat.mod_eq_of_lt hy]
  rw [BitVec.toNat_or, hshift, Nat.or_comm, Nat.add_comm, Nat.two_pow_add_eq_or_of_lt hx]

theorem getLsbD_iff_toNat {w : Nat} (x : BitVec w) (i : Nat) : x.getLsbD i = true ↔ x.toNat / 2 ^ i % 2 = 1 := by
  rw [← BitVec.testBit_toNat, Nat.testBit_eq_decide_div_mod_eq, decide_eq_true_eq]

/-! ### FB[5] -/

theorem bitByte_toNat (b : Bool) : (bitByte b).toNat = if b then 1 else 0 := by cases b <;> rfl

theorem bitByte_toNat_le (b : Bool) : (bitByte b).toNat ≤ 1 := by cases b <;> decide

theorem mode_code_toNat (m : Mode) : (m.code.setWidth 8).toNat = wireMode m := by cases m <;> rfl

theorem wireMode_le (m : Mode) : wireMode m ≤ 6 := by cases m <;> decide

/-- The five fields of FB[5], lowest first. -/
theorem flags_fields_toNat (a b c m : Byte) (ha : a.toNat ≤ 1) (hb : b.toNat ≤ 1) (hc : c.toNat ≤ 1)
    (hm : m.toNat ≤ 6) :
    (a ||| (b <<< 1) ||| (c <<< 2) ||| flagsConstant ||| (m <<< 4)).toNat =
      a.toNat + 2 * b.toNat + 4 * c.toNat + 8 + 16 * m.toNat := by
  have hone : (1 : Byte).toNat = 1 := rfl
  have h1 := toNat_or_shiftLeft a b 1 (by omega) (by omega)
  have h2 := toNat_or_shiftLeft (a ||| b <<< 1) c 2 (by omega) (by omega)
  have h3 : (a ||| b <<< 1 ||| c <<< 2 ||| flagsConstant).toNat = _ :=
    toNat_or_shiftLeft (a ||| b <<< 1 ||| c <<< 2) (1 : Byte) 3 (by omega) (by omega)
  have h4 := toNat_or_shiftLeft (a ||| b <<< 1 ||| c <<< 2 ||| flagsConstant) m 4 (by omega) (by omega)
  omega

theorem flagsMode_fields_toNat (p : Command) : (flagsMode p).toNat =
    (bitByte p.state).toNat + 2 * (bitByte (decide (0 < p.ontimer.val))).toNat +
      4 * (bitByte (decide (0 < p.offtimer.val))).toNat + 8 + 16 * wireMode p.mode := by
  rw [← mode_code_toNat]
  exact flags_fields_toNat _ _ _ _ (bitByte_toNat_le _) (bitByte_toNat_le _) (bitByte_toNat_le _)
    (mode_code_toNat p.mode ▸ wireMode_le p.mode)

/-- R71, R129. -/
theorem flagsMode_toNat (p : Command) : (flagsMode p).toNat = wireFlags p := by
  rw [flagsMode_fields_toNat, wireFlags]
  simp only [bitByte_toNat, decide_eq_true_eq, mul_ite, mul_one, mul_zero]

/-! ### FB[6] -/

/-- R74: the two readings of "4-bit two's complement". -/
theorem autotemp_mod_sixteen (a : Autotemp) : (if a.val < 0 then 16 + a.val else a.val) = a.val % 16 := by
  obtain ⟨z, hlo, hhi⟩ := a
  dsimp only
  split_ifs <;> omega

theorem autotempCode_toNat (a : Autotemp) : (autotempCode a).toNat = (a.val % 16).toNat := by
  rw [autotempCode, autotemp_mod_sixteen, BitVec.toNat_ofInt]
  omega

theorem autotempCode_shift_toNat (a : Autotemp) : (autotempCode a <<< 1).toNat = 2 * (a.val % 16).toNat := by
  rw [BitVec.toNat_shiftLeft, Nat.shiftLeft_eq, autotempCode_toNat]
  omega

/-- R73, R130: the autotemp form. -/
theorem autotempByte_toNat (p : Command) : (autotempByte p).toNat = 192 + 2 * (p.autotemp.val % 16).toNat := by
  have hcode := autotempCode_shift_toNat p.autotemp
  have hthree : (3 : Byte).toNat = 3 := rfl
  have hform := toNat_or_shiftLeft (autotempCode p.autotemp <<< 1) (3 : Byte) 6 (by omega) (by omega)
  have hbyte : autotempByte p = autotempCode p.autotemp <<< 1 ||| (3 : Byte) <<< 6 := rfl
  rw [hbyte]
  omega

/-- R73, R130: the temperature form. -/
theorem temperatureByte_toNat (p : Command) : (temperatureByte p).toNat = 2 * p.temperature.val.toNat := by
  obtain ⟨hlo, hhi⟩ := p.temperature.property
  rw [temperatureByte, BitVec.toNat_shiftLeft, Nat.shiftLeft_eq, BitVec.toNat_ofInt]
  omega

/-- R73, R130. -/
theorem tempByte_toNat (p : Command) : (tempByte p).toNat = wireTemp p := by
  unfold tempByte wireTemp
  cases p.mode with
  | auto | dry => exact autotempByte_toNat p
  | cold | hot => exact temperatureByte_toNat p
  | fan => rfl

/-! ### FA[8], FB[7], FB[8] and FB[16] -/

/-- R122. -/
theorem niceByte_toNat (p : Command) : (niceByte p).toNat = if p.fan = .nice then 16 else 0 := by
  unfold niceByte
  split_ifs <;> rfl

/-- R131: the modes of 0x80. -/
theorem companionByte_eq (p : Command) : companionByte p = if p.mode = .auto ∨ p.mode = .dry then 0x80 else 0 := by
  unfold companionByte
  cases p.mode <;> rfl

/-- R75, R131. -/
theorem companionByte_toNat (p : Command) : (companionByte p).toNat = wireCompanion p := by
  unfold companionByte wireCompanion
  cases p.mode <;> rfl

/-- R77: the fan code of a nibble. -/
theorem fan_code_toNat (f : Fan) : f.code.toNat = wireFan f := by
  cases f with
  | speed n =>
    obtain ⟨hlo, hhi⟩ := n.property
    rw [Fan.code, BitVec.toNat_ofInt, wireFan]
    omega
  | auto | nice | quiet => rfl

theorem wireFan_bounds (f : Fan) : 3 ≤ wireFan f ∧ wireFan f ≤ 11 := by
  cases f with
  | speed n =>
    obtain ⟨hlo, hhi⟩ := n.property
    rw [wireFan]
    omega
  | auto | nice | quiet => decide

/-- R76, R132. -/
theorem fanSwing_toNat (p : Command) : (fanSwing p).toNat = wireFanSwing p := by
  have hcode := fan_code_toNat p.fan
  obtain ⟨-, hfan⟩ := wireFan_bounds p.fan
  have hswing : (if p.swing then swingNibble else 0).toNat = if p.swing then 15 else 0 := by cases p.swing <;> rfl
  have hnibble : (if p.swing then 15 else 0) < 2 ^ 4 := by split_ifs <;> decide
  rw [fanSwing, BitVec.or_comm, toNat_or_shiftLeft _ _ 4 (hswing ▸ hnibble) (by omega), hswing, hcode, wireFanSwing]
  exact Nat.add_comm _ _

/-- R80, R135. -/
theorem streamerByte_toNat (p : Command) : (streamerByte p).toNat = wireStreamer p := by
  unfold streamerByte wireStreamer
  cases p.streamer <;> rfl

/-! ### The timer word -/

/-- R78: what one half of T holds at its shift; the sentinel 3 stands 7 bits above the shift of either half. -/
def wireHalf (n : Timer) : Nat := if 0 < n.val then n.val.toNat * 15 else 384

theorem wireHalf_bounds (n : Timer) : 15 ≤ wireHalf n ∧ wireHalf n ≤ 384 := by
  obtain ⟨hlo, hhi⟩ := n.property
  unfold wireHalf
  split_ifs <;> omega

theorem wireTimer_eq (p : Command) : wireTimer p = 2 ^ 10 * wireHalf p.ontimer + 2 ^ 22 * wireHalf p.offtimer := by
  unfold wireTimer wireHalf
  split_ifs <;> omega

/-- The value times 15, or the sentinel, before the shift. -/
theorem timerHalf_eq (n : Timer) (k : Nat) : timerHalf n k (k + 7) = BitVec.ofNat 32 (wireHalf n) <<< k := by
  unfold timerHalf wireHalf
  split_ifs with h
  · obtain ⟨m, hm⟩ := Int.eq_ofNat_of_zero_le h.le
    rw [hm, timerFactor]
    rfl
  · rw [Nat.add_comm, BitVec.shiftLeft_add]
    rfl

/-- R78, R133. -/
theorem timerWord_toNat (p : Command) : (timerWord p).toNat = wireTimer p := by
  obtain ⟨-, hon⟩ := wireHalf_bounds p.ontimer
  obtain ⟨-, hoff⟩ := wireHalf_bounds p.offtimer
  have honNat : (BitVec.ofNat 32 (wireHalf p.ontimer)).toNat = wireHalf p.ontimer := Nat.mod_eq_of_lt (by omega)
  have hoffNat : (BitVec.ofNat 32 (wireHalf p.offtimer)).toNat = wireHalf p.offtimer := Nat.mod_eq_of_lt (by omega)
  have hlow : (BitVec.ofNat 32 (wireHalf p.ontimer) <<< 10).toNat = 2 ^ 10 * wireHalf p.ontimer := by
    rw [BitVec.toNat_shiftLeft, Nat.shiftLeft_eq, honNat]
    omega
  calc (timerWord p).toNat
      = (BitVec.ofNat 32 (wireHalf p.ontimer) <<< 10 ||| BitVec.ofNat 32 (wireHalf p.offtimer) <<< 22).toNat := by
        rw [← timerHalf_eq, ← timerHalf_eq]
        rfl
    _ = 2 ^ 10 * wireHalf p.ontimer + 2 ^ 22 * wireHalf p.offtimer := by
        rw [toNat_or_shiftLeft _ _ 22 (by omega) (by omega), hlow, hoffNat]
    _ = wireTimer p := (wireTimer_eq p).symm

end Sys2Proof.Machine
end

section
/-! SUPPORT. What a build and a byte operation write, and what they leave (41_frame_builder.md). -/

namespace Sys2Proof.Machine

/-! ### The bytes of the builds as numbers -/

/-- R61, R120. -/
theorem payloadA_toNat (p : Command) : (payloadA p ++ [0]).map BitVec.toNat = wireFrameA p := by
  simp [payloadA, frameHeader, wireFrameA, niceByte_toNat, List.replicate]

/-- R42: the bytes of a word are its digits to the base 256. -/
theorem extract_byte_toNat (w : BitVec 32) (k : Nat) : (w.extractLsb' k 8).toNat = w.toNat / 2 ^ k % 256 := by
  rw [BitVec.extractLsb'_toNat, Nat.shiftRight_eq_div_pow]

theorem wordBytes_toNat (w : BitVec 32) : (wordBytes w).map BitVec.toNat =
    [w.toNat % 256, w.toNat / 2 ^ 8 % 256, w.toNat / 2 ^ 16 % 256, w.toNat / 2 ^ 24 % 256] := by
  simp only [wordBytes, List.map_cons, List.map_nil, extract_byte_toNat, pow_zero, Nat.div_one]

/-- R70, R125. -/
theorem payloadB_toNat (p : Command) : (payloadB p ++ [0]).map BitVec.toNat = wireFrameB p := by
  simp [payloadB, payloadBHead, payloadBTail, frameHeader, wireFrameB, constantFb15, wordBytes_toNat, flagsMode_toNat,
    tempByte_toNat, companionByte_toNat, fanSwing_toNat, timerWord_toNat, streamerByte_toNat]

/-! ### Bytes read after they were written -/

@[simp] theorem State.loadByte_storeByte_self (s : State) (f : FrameName) (i : Nat) (v : Byte) :
    (s.storeByte f i v).loadByte f i = v := by
  rw [State.loadByte_storeByte, if_pos rfl]

theorem State.loadByte_storeByte_of_ne (s : State) (f : FrameName) (i : Nat) (v : Byte) (j : Nat) (h : j ≠ i) :
    (s.storeByte f i v).loadByte f j = s.loadByte f j := by
  rw [State.loadByte_storeByte, if_neg h.symm]

/-- A whole frame written from offset 0 on, read as numbers. -/
theorem State.loadByte_storeBytes_toNat (s : State) (f : FrameName) (bs : List Byte) (ns : List Nat)
    (hns : bs.map BitVec.toNat = ns) (i : Nat) (hi : i < bs.length) :
    ((s.storeBytes f 0 bs).loadByte f i).toNat = ns.getD i 0 := by
  rw [State.loadByte_storeBytes, if_pos ⟨Nat.zero_le i, by omega⟩, Nat.sub_zero, ← hns]
  exact (List.getD_map bs (0 : Byte) BitVec.toNat).symm

theorem State.loadByte_storeBytes_beyond (s : State) (f : FrameName) (bs : List Byte) (i : Nat) (hi : bs.length ≤ i) :
    (s.storeBytes f 0 bs).loadByte f i = s.loadByte f i := by
  rw [State.loadByte_storeBytes, if_neg (by omega)]

theorem State.setT_loadByte (s : State) (w : BitVec 32) (f : FrameName) (i : Nat) :
    (s.setT w).loadByte f i = s.loadByte f i := by
  cases f <;> rfl

/-- A state that differs in FB only, with T written: it differs in FB and T only. -/
theorem State.setT_frame_B {s u : State} (w : BitVec 32) (h : u = { s with fb := u.fb }) :
    u.setT w = { s with fb := (u.setT w).fb, t := (u.setT w).t } := congrArg (State.setT · w) h

/-! ### One byte operation -/

/-- An operation that stores bytes to Frame A writes them at their offsets, and nothing else. -/
theorem exec_stores_A {i : Instr} {s : State} {o : Nat} {vs : List Byte} (h : exec i s = .next (s.storeBytes .A o vs)) :
    ∃ t, exec i s = .next t ∧ t = { s with fa := t.fa } ∧
      ∀ j, t.loadByte .A j = if o ≤ j ∧ j < o + vs.length then vs.getD (j - o) (0 : Byte) else s.loadByte .A j :=
  ⟨_, h, s.storeBytes_A_eq o vs, fun j => s.loadByte_storeBytes .A o j vs⟩

/-- An operation that stores bytes to Frame B writes them at their offsets, and nothing else. -/
theorem exec_stores_B {i : Instr} {s : State} {o : Nat} {vs : List Byte} (h : exec i s = .next (s.storeBytes .B o vs)) :
    ∃ t, exec i s = .next t ∧ t = { s with fb := t.fb } ∧
      ∀ j, t.loadByte .B j = if o ≤ j ∧ j < o + vs.length then vs.getD (j - o) (0 : Byte) else s.loadByte .B j :=
  ⟨_, h, s.storeBytes_B_eq o vs, fun j => s.loadByte_storeBytes .B o j vs⟩

/-- R130, log entry 9: a byte written to Frame B when a condition selects it. -/
theorem State.storeByte_B_if (s : State) (c : Prop) [Decidable c] (i : Nat) (v : Byte) (t : State)
    (ht : t = if c then s.storeByte .B i v else s) :
    t = { s with fb := t.fb } ∧ (c → t.loadByte .B i = v) ∧ (¬ c → t = s) ∧
      ∀ j, j ≠ i → t.loadByte .B j = s.loadByte .B j := by
  by_cases hc : c
  · rw [if_pos hc] at ht
    subst ht
    exact ⟨rfl, fun _ => s.loadByte_storeByte_self .B i v, fun h => absurd hc h, s.loadByte_storeByte_of_ne .B i v⟩
  · rw [if_neg hc] at ht
    subst ht
    exact ⟨rfl, fun h => absurd h hc, fun _ => rfl, fun _ _ => rfl⟩

end Sys2Proof.Machine
end

section
/-! SUPPORT. What the sequence of a command tells: the frames, and of the registers those that the mode sends
(95_test_vectors.md section 6). -/

namespace Sys2Proof.Machine

/-! ### The sequence determines the frames -/

theorem ite_eq_ite_iff_of_ne {α : Type} {x y : α} (hne : x ≠ y) (a b : Prop) [Decidable a] [Decidable b] :
    ((if a then x else y) = if b then x else y) ↔ (a ↔ b) := by
  by_cases ha : a
  · simp [ha, hne]
  · simp [ha, hne.symm]

theorem byteSymbols_getElem?_space (v : Byte) (j : Nat) (hj : j < 8) :
    (byteSymbols v)[2 * j + 1]? = some (if v.getLsbD j then tSpace1 else tSpace0) := by
  have hplace : (2 * j + 1) / 2 = j := by omega
  rw [byteSymbols_getElem? v _ (by omega), if_neg (by omega), hplace]

/-- R165: the spaces tell the bits. -/
theorem byteSymbols_injective : Function.Injective byteSymbols := by
  intro v w h
  refine BitVec.eq_of_getLsbD_eq fun j hj => ?_
  have hspace := byteSymbols_getElem?_space w j hj
  rw [← h, byteSymbols_getElem?_space v j hj, Option.some_inj] at hspace
  exact Bool.eq_iff_iff.mpr ((ite_eq_ite_iff_of_ne (by decide) _ _).mp hspace)

theorem frameSymbols_injective : Function.Injective frameSymbols := by
  intro as bs h
  have hlength : as.length = bs.length := by
    have := congrArg List.length h
    rw [frameSymbols_length, frameSymbols_length] at this
    omega
  induction as generalizing bs with
  | nil => exact (List.length_eq_zero_iff.mp hlength.symm).symm
  | cons a as ih =>
    cases bs with
    | nil => exact absurd hlength (Nat.succ_ne_zero _)
    | cons b bs =>
      obtain ⟨hbyte, hrest⟩ : byteSymbols a = byteSymbols b ∧ frameSymbols as = frameSymbols bs :=
        List.append_inj h (by rw [byteSymbols_length, byteSymbols_length])
      rw [byteSymbols_injective hbyte, ih hrest (Nat.succ_injective hlength)]

/-- R167: the segments of the sequence have fixed places, so the frames can be read back. -/
theorem sequenceOf_inj {a b c d : List Byte} (hlength : a.length = c.length) (h : sequenceOf a b = sequenceOf c d) :
    a = c ∧ b = d := by
  simp only [sequenceOf, List.append_assoc] at h
  obtain ⟨ha, hrest⟩ := List.append_inj (List.append_cancel_left (List.append_cancel_left h))
    (by rw [frameSymbols_length, frameSymbols_length, hlength])
  have hb := List.append_cancel_right (List.append_cancel_left hrest)
  exact ⟨frameSymbols_injective ha, frameSymbols_injective hb⟩

theorem encodeFunction_eq_iff (c d : PartialCommand) : encodeFunction c = encodeFunction d ↔
    frameA (normalizedCommand c) = frameA (normalizedCommand d) ∧
      frameB (normalizedCommand c) = frameB (normalizedCommand d) := by
  rw [encodeFunction, encodeFunction]
  constructor
  · exact sequenceOf_inj (by rw [frameA_length, frameA_length])
  · rintro ⟨hA, hB⟩
    rw [hA, hB]

/-! ### The frames determine their dynamic bytes -/

theorem frameA_eq_iff (p q : Command) : frameA p = frameA q ↔ niceByte p = niceByte q := by
  constructor
  · intro h
    exact congrArg (List.getD · 8 0) h
  · intro h
    simp only [frameA, payloadA, h]

theorem wordBytes_injective : Function.Injective wordBytes := by
  intro w x h
  have hdigits := congrArg (List.map BitVec.toNat) h
  simp only [wordBytes_toNat, List.cons.injEq] at hdigits
  obtain ⟨h0, h1, h2, h3, -⟩ := hdigits
  apply BitVec.eq_of_toNat_eq
  omega

/-- R125: the bytes of Frame B that vary. -/
theorem frameB_eq_iff (p q : Command) : frameB p = frameB q ↔
    flagsMode p = flagsMode q ∧ tempByte p = tempByte q ∧ companionByte p = companionByte q ∧ fanSwing p = fanSwing q ∧
      timerWord p = timerWord q ∧ streamerByte p = streamerByte q := by
  constructor
  · intro h
    have hbyte (i : Nat) : (frameB p).getD i 0 = (frameB q).getD i 0 := by rw [h]
    have hword : wordBytes (timerWord p) = wordBytes (timerWord q) := congrArg (fun bs => (bs.drop 9).take 4) h
    exact ⟨hbyte 5, hbyte 6, hbyte 7, hbyte 8, wordBytes_injective hword, hbyte 16⟩
  · rintro ⟨hflags, htemp, hcompanion, hfan, hword, hstreamer⟩
    simp only [frameB, payloadB, payloadBHead, payloadBTail, hflags, htemp, hcompanion, hfan, hword, hstreamer]

/-! ### The dynamic bytes determine the registers that the mode sends -/

/-- R72: the mode of a mode code; the codes 1, 5 and above 6 belong to no mode. -/
def modeOfCode : Nat → Mode
  | 0 => .auto
  | 2 => .dry
  | 3 => .cold
  | 4 => .hot
  | _ => .fan

theorem modeOfCode_wireMode : Function.LeftInverse modeOfCode wireMode := fun m => by cases m <;> rfl

theorem wireMode_injective : Function.Injective wireMode := modeOfCode_wireMode.injective

theorem bitByte_toNat_inj (a b : Bool) : (bitByte a).toNat = (bitByte b).toNat ↔ a = b := by
  cases a <;> cases b <;> decide

theorem bitByte_decide_toNat_inj (a b : Prop) [Decidable a] [Decidable b] :
    (bitByte (decide a)).toNat = (bitByte (decide b)).toNat ↔ (a ↔ b) := by
  rw [bitByte_toNat_inj, decide_eq_decide]

/-- R71: FB[5] tells the state, whether a timer is enabled, and the mode. -/
theorem flagsMode_eq_iff (p q : Command) : flagsMode p = flagsMode q ↔
    p.state = q.state ∧ (0 < p.ontimer.val ↔ 0 < q.ontimer.val) ∧ (0 < p.offtimer.val ↔ 0 < q.offtimer.val) ∧
      p.mode = q.mode := by
  have hp := bitByte_toNat_le p.state
  have hpon := bitByte_toNat_le (decide (0 < p.ontimer.val))
  have hpoff := bitByte_toNat_le (decide (0 < p.offtimer.val))
  have hq := bitByte_toNat_le q.state
  have hqon := bitByte_toNat_le (decide (0 < q.ontimer.val))
  have hqoff := bitByte_toNat_le (decide (0 < q.offtimer.val))
  rw [← BitVec.toNat_inj, flagsMode_fields_toNat, flagsMode_fields_toNat, ← wireMode_injective.eq_iff,
    ← bitByte_toNat_inj p.state, ← bitByte_decide_toNat_inj (0 < p.ontimer.val),
    ← bitByte_decide_toNat_inj (0 < p.offtimer.val)]
  omega

/-- R73: under one mode, FB[6] tells the register of the form that the mode selects. -/
theorem tempByte_eq_iff (p q : Command) (hmode : p.mode = q.mode) : tempByte p = tempByte q ↔
    ((p.mode = .auto ∨ p.mode = .dry) → p.autotemp = q.autotemp) ∧
      ((p.mode = .cold ∨ p.mode = .hot) → p.temperature = q.temperature) := by
  have hauto : (192 + 2 * (p.autotemp.val % 16).toNat = 192 + 2 * (q.autotemp.val % 16).toNat) ↔
      p.autotemp = q.autotemp := by
    obtain ⟨hp, hp'⟩ := p.autotemp.property
    obtain ⟨hq, hq'⟩ := q.autotemp.property
    rw [Subtype.ext_iff]
    omega
  have htemperature : (2 * p.temperature.val.toNat = 2 * q.temperature.val.toNat) ↔ p.temperature = q.temperature := by
    obtain ⟨hp, -⟩ := p.temperature.property
    obtain ⟨hq, -⟩ := q.temperature.property
    rw [Subtype.ext_iff]
    omega
  rw [← BitVec.toNat_inj, tempByte_toNat, tempByte_toNat]
  simp only [wireTemp, ← hmode]
  cases p.mode with
  | auto | dry => simpa using hauto
  | cold | hot => simpa using htemperature
  | fan => simp

/-- R77: the fan code tells the fan up to "nice" and "auto", and FA[8] tells these two apart. -/
theorem fan_eq_iff (f g : Fan) : f = g ↔ wireFan f = wireFan g ∧ (f = .nice ↔ g = .nice) := by
  refine ⟨fun h => h ▸ ⟨rfl, Iff.rfl⟩, fun ⟨hcode, hnice⟩ => ?_⟩
  cases f with
  | speed m =>
    obtain ⟨hlo, hhi⟩ := m.property
    cases g with
    | speed n =>
      obtain ⟨hlo', hhi'⟩ := n.property
      simp only [wireFan] at hcode
      exact congrArg Fan.speed (Subtype.ext (by omega))
    | auto | quiet | nice =>
      simp only [wireFan] at hcode
      omega
  | auto | quiet | nice =>
    cases g with
    | speed n =>
      obtain ⟨hlo, hhi⟩ := n.property
      simp only [wireFan] at hcode
      omega
    | auto | quiet | nice => simp_all [wireFan]

theorem niceByte_eq_iff (p q : Command) : niceByte p = niceByte q ↔ (p.fan = .nice ↔ q.fan = .nice) := by
  rw [← BitVec.toNat_inj, niceByte_toNat, niceByte_toNat]
  exact ite_eq_ite_iff_of_ne (by decide) _ _

/-- R76: FB[8] tells the fan code and the swing. -/
theorem fanSwing_eq_iff (p q : Command) : fanSwing p = fanSwing q ↔
    wireFan p.fan = wireFan q.fan ∧ p.swing = q.swing := by
  have hswing := ite_eq_ite_iff_of_ne (show 15 ≠ 0 by decide) (p.swing = true) (q.swing = true)
  have hp : (if p.swing then 15 else 0) ≤ 15 := by split_ifs <;> decide
  have hq : (if q.swing then 15 else 0) ≤ 15 := by split_ifs <;> decide
  rw [← BitVec.toNat_inj, fanSwing_toNat, fanSwing_toNat, wireFanSwing, wireFanSwing,
    Bool.eq_iff_iff (a := p.swing) (b := q.swing), ← hswing]
  omega

theorem wireHalf_injective : Function.Injective wireHalf := by
  intro m n h
  obtain ⟨hm, hm'⟩ := m.property
  obtain ⟨hn, hn'⟩ := n.property
  unfold wireHalf at h
  apply Subtype.ext
  split_ifs at h <;> omega

/-- R78: T tells both timers. -/
theorem timerWord_eq_iff (p q : Command) : timerWord p = timerWord q ↔
    p.ontimer = q.ontimer ∧ p.offtimer = q.offtimer := by
  obtain ⟨-, hp⟩ := wireHalf_bounds p.ontimer
  obtain ⟨-, hq⟩ := wireHalf_bounds q.ontimer
  rw [← BitVec.toNat_inj, timerWord_toNat, timerWord_toNat, wireTimer_eq, wireTimer_eq, ← wireHalf_injective.eq_iff,
    ← wireHalf_injective.eq_iff (a := p.offtimer)]
  omega

/-- R80. -/
theorem streamerByte_eq_iff (p q : Command) : streamerByte p = streamerByte q ↔ p.streamer = q.streamer := by
  rw [← BitVec.toNat_inj, streamerByte_toNat, streamerByte_toNat, wireStreamer, wireStreamer]
  exact (ite_eq_ite_iff_of_ne (by decide) _ _).trans Bool.eq_iff_iff.symm

/-- 95_test_vectors.md section 6: two commands have the same frames exactly when they agree on what their mode sends. -/
theorem frames_eq_iff (p q : Command) : frameA p = frameA q ∧ frameB p = frameB q ↔
    p.fan = q.fan ∧ p.swing = q.swing ∧ p.state = q.state ∧ p.streamer = q.streamer ∧ p.ontimer = q.ontimer ∧
    p.offtimer = q.offtimer ∧ p.mode = q.mode ∧
    ((p.mode = .auto ∨ p.mode = .dry) → p.autotemp = q.autotemp) ∧
    ((p.mode = .cold ∨ p.mode = .hot) → p.temperature = q.temperature) := by
  rw [frameA_eq_iff, frameB_eq_iff, niceByte_eq_iff, flagsMode_eq_iff, fanSwing_eq_iff, timerWord_eq_iff,
    streamerByte_eq_iff]
  constructor
  · rintro ⟨hnice, ⟨hstate, -, -, hmode⟩, htemp, -, ⟨hcode, hswing⟩, ⟨hon, hoff⟩, hstreamer⟩
    exact ⟨(fan_eq_iff _ _).mpr ⟨hcode, hnice⟩, hswing, hstate, hstreamer, hon, hoff, hmode,
      (tempByte_eq_iff p q hmode).mp htemp⟩
  · rintro ⟨hfan, hswing, hstate, hstreamer, hon, hoff, hmode, htemp⟩
    obtain ⟨hcode, hnice⟩ := (fan_eq_iff _ _).mp hfan
    refine ⟨hnice, ⟨hstate, ?_, ?_, hmode⟩, (tempByte_eq_iff p q hmode).mpr htemp, ?_, ⟨hcode, hswing⟩, ⟨hon, hoff⟩,
      hstreamer⟩
    · rw [hon]
    · rw [hoff]
    · rw [companionByte, companionByte, hmode]

end Sys2Proof.Machine
end

section
/-! The statements about the frame builder (41_frame_builder.md). -/

namespace Sys2Proof.Machine

/-- Settles O24: the store of the 20 bytes. -/
theorem buildAWritesFrameA : Obligations.BuildAWritesFrameA := by
  intro s
  have hlength : (payloadA s.p ++ [0]).length = 20 := by rw [List.length_append, payloadA_length]; rfl
  refine ⟨s.buildA, rfl, s.storeBytes_A_eq 0 _, fun i hi => ?bytes, fun i hi => ?beyond⟩
  case bytes => exact s.loadByte_storeBytes_toNat .A _ _ (payloadA_toNat s.p) i (hlength ▸ hi)
  case beyond => exact s.loadByte_storeBytes_beyond .A _ i (hlength ▸ hi)

/-- Settles O25: the store of the 19 bytes, and T on the way. -/
theorem buildBWritesFrameB : Obligations.BuildBWritesFrameB := by
  intro s
  have hlength : (payloadB s.p ++ [0]).length = 19 := by rw [List.length_append, payloadB_length]; rfl
  refine ⟨_, congrArg Host.Outcome.next s.buildB_eq, ?frame, ?word, fun i hi => ?bytes, fun i hi => ?beyond⟩
  case frame => exact State.setT_frame_B _ (s.storeBytes_B_eq 0 _)
  case word => exact timerWord_toNat s.p
  case bytes =>
    rw [State.setT_loadByte]
    exact s.loadByte_storeBytes_toNat .B _ _ (payloadB_toNat s.p) i (hlength ▸ hi)
  case beyond =>
    rw [State.setT_loadByte]
    exact s.loadByte_storeBytes_beyond .B _ i (hlength ▸ hi)

/-- Settles O29: FB[5] is the sum of its fields (R71). -/
theorem flagsByteIsWritten : Obligations.FlagsByteIsWritten := by
  intro s
  have hmode := wireMode_le s.p.mode
  refine ⟨s.storeByte .B 5 (flagsMode s.p), rfl, rfl, ?state, ?ontimer, ?offtimer, ?constant, ?mode,
    s.loadByte_storeByte_of_ne .B 5 _⟩
  all_goals simp only [State.loadByte_storeByte_self, getLsbD_iff_toNat, flagsMode_toNat, wireFlags]
  case state =>
    by_cases hstate : s.p.state = true
    · rw [if_pos hstate, iff_true_right hstate]
      split_ifs <;> omega
    · rw [if_neg hstate, iff_false_right hstate]
      split_ifs <;> omega
  all_goals split_ifs <;> omega

/-- Settles O30: each form is a byte written under a condition on the mode, and the conditions exclude each other. -/
theorem temperatureByteFormsAreWritten : Obligations.TemperatureByteFormsAreWritten := by
  refine ⟨fun s => ⟨_, rfl, ?autodry⟩, fun s => ⟨_, rfl, ?coldhot⟩, fun s => ⟨_, rfl, ?fan⟩,
    fun s => ⟨_, performAll_fb6 s, ?all⟩⟩
  case autodry =>
    obtain ⟨hframe, hselected, hother, hrest⟩ := s.storeByte_B_if (s.p.mode = .auto ∨ s.p.mode = .dry) 6
      (autotempByte s.p) _ rfl
    refine ⟨hframe, fun hmode => ?_, hother, hrest⟩
    rw [hselected hmode, autotempByte_toNat, autotemp_mod_sixteen]
  case coldhot =>
    obtain ⟨hframe, hselected, hother, hrest⟩ := s.storeByte_B_if (s.p.mode = .cold ∨ s.p.mode = .hot) 6
      (temperatureByte s.p) _ rfl
    refine ⟨hframe, fun hmode => ?_, hother, hrest⟩
    rw [hselected hmode, temperatureByte_toNat]
  case fan => exact s.storeByte_B_if (s.p.mode = .fan) 6 0 _ rfl
  case all =>
    rw [State.storeBytes_cons, State.storeBytes_nil, State.loadByte_storeByte_self, tempByte_toNat]

/-- Settles O32. -/
theorem fanSwingByteIsWritten : Obligations.FanSwingByteIsWritten := by
  intro s
  refine ⟨s.storeByte .B 8 (fanSwing s.p), rfl, rfl, ?fan, ?swing, s.loadByte_storeByte_of_ne .B 8 _⟩
  all_goals
    rw [State.loadByte_storeByte_self, fanSwing_toNat, wireFanSwing]
    split_ifs <;> omega

/-- Settles O33: the operation of offset 9 + j writes byte j of T. -/
theorem timerBytesAreWritten : Obligations.TimerBytesAreWritten := by
  intro x hx s
  have hexec : exec x.1 s = .next (s.storeByte .B x.2 (s.t.extractLsb' (8 * (x.2 - 9)) 8)) := by
    fin_cases hx <;> rfl
  refine ⟨_, hexec, rfl, ?_, s.loadByte_storeByte_of_ne .B x.2 _⟩
  rw [State.loadByte_storeByte_self, extract_byte_toNat]

/-- Settles O35: each expression is a number of plain arithmetic (R71 to R78), bounded through its fields. -/
theorem builderValuesLieInTheirRanges : Obligations.BuilderValuesLieInTheirRanges := by
  intro p
  have hmode := wireMode_le p.mode
  obtain ⟨hfanLow, hfanHigh⟩ := wireFan_bounds p.fan
  obtain ⟨htempLow, htempHigh⟩ := p.temperature.property
  obtain ⟨-, honMax⟩ := p.ontimer.property
  obtain ⟨-, hoffMax⟩ := p.offtimer.property
  obtain ⟨honLow, honHigh⟩ := wireHalf_bounds p.ontimer
  obtain ⟨hoffLow, hoffHigh⟩ := wireHalf_bounds p.offtimer
  rw [flagsMode_toNat, autotempCode_shift_toNat, autotempByte_toNat, temperatureByte_toNat, fanSwing_toNat,
    timerWord_toNat, wireTimer_eq, ← Bool.not_eq_true, getLsbD_iff_toNat, timerWord_toNat, wireTimer_eq]
  refine ⟨?flags, ?autotempCode, ?autotemp, ?temperature, ?fanSwing, ?ontimer, ?offtimer, ?word, ?topBit, ?lowBits⟩
  case flags =>
    unfold wireFlags
    split_ifs <;> omega
  case fanSwing =>
    unfold wireFanSwing
    split_ifs <;> omega
  case ontimer | offtimer =>
    unfold timerFactor
    omega
  all_goals omega

/-- Settles O54: the sequence tells the two frames, the frames their dynamic bytes, and these the registers. -/
theorem sequencesSeparateCommands : Obligations.SequencesSeparateCommands := by
  intro c d
  rw [encodeFunction_eq_iff]
  exact frames_eq_iff (normalizedCommand c) (normalizedCommand d)

/-- Settles O26. -/
theorem frameAConstantBytesAreWritten : Obligations.FrameAConstantBytesAreWritten := by
  intro x hx s
  have hexec : exec x.1 s = .next (s.storeBytes .A x.2.1 x.2.2) := by
    fin_cases hx <;> rfl
  exact exec_stores_A hexec

/-- Settles O27. -/
theorem niceBitIsWritten : Obligations.NiceBitIsWritten := fun s =>
  ⟨s.storeByte .A 8 (niceByte s.p), rfl, rfl, s.loadByte_storeByte_self .A 8 _, s.loadByte_storeByte_of_ne .A 8 _⟩

/-- Settles O28. -/
theorem frameBConstantAndStreamerBytesAreWritten : Obligations.FrameBConstantAndStreamerBytesAreWritten := by
  refine ⟨fun x hx s => ?constants, fun s => ?streamer⟩
  case constants =>
    have hexec : exec x.1 s = .next (s.storeBytes .B x.2.1 x.2.2) := by
      fin_cases hx <;> rfl
    exact exec_stores_B hexec
  case streamer =>
    refine ⟨s.storeByte .B 16 (streamerByte s.p), rfl, rfl, ?_, s.loadByte_storeByte_of_ne .B 16 _⟩
    rw [State.loadByte_storeByte_self, streamerByte_toNat]

/-- Settles O31. -/
theorem companionByteIsWritten : Obligations.CompanionByteIsWritten := by
  intro s
  refine ⟨s.storeByte .B 7 (companionByte s.p), rfl, rfl, ?_, s.loadByte_storeByte_of_ne .B 7 _⟩
  rw [State.loadByte_storeByte_self, companionByte_eq]

end Sys2Proof.Machine
end

section
/-! SUPPORT. The checksum as a number, and a frame that ends in its checksum (42_checksum.md). -/

namespace Sys2Proof.Machine

/-- R150: a byte that discards the carry accumulates the sum mod 256, from any start value. -/
theorem foldl_add_toNat (bs : List Byte) (v : Byte) :
    (bs.foldl (· + ·) v).toNat = (v.toNat + (bs.map BitVec.toNat).sum) % 256 := by
  induction bs generalizing v with
  | nil => simpa using (Nat.mod_eq_of_lt v.isLt).symm
  | cons b bs ih =>
    rw [List.foldl_cons, ih, List.map_cons, List.sum_cons, BitVec.toNat_add, Nat.mod_add_mod, Nat.add_assoc]

theorem csum_toNat (bs : List Byte) : (csum bs).toNat = (bs.map BitVec.toNat).sum % 256 := by
  simp [csum, foldl_add_toNat]

theorem State.csum_loadBytes_toNat (s : State) (f : FrameName) (n : Nat) :
    (csum (s.loadBytes f n)).toNat = s.payloadSum f n := by
  rw [csum_toNat, State.loadBytes, List.map_map]
  rfl

/-- R151, R152: the checksum of the first `n` bytes, stored after them, is their sum. -/
theorem State.loadByte_storeByte_csum_toNat (s : State) (f : FrameName) (n : Nat) :
    ((s.storeByte f n (csum (s.loadBytes f n))).loadByte f n).toNat = s.payloadSum f n := by
  rw [State.loadByte_storeByte_self, State.csum_loadBytes_toNat]

theorem State.loadBytes_succ (s : State) (f : FrameName) (n : Nat) :
    s.loadBytes f (n + 1) = s.loadBytes f n ++ [s.loadByte f n] := by
  simp only [State.loadBytes, List.range_succ, List.map_append, List.map_cons, List.map_nil]

/-- R154: a frame that reads as a payload with its checksum ends in the sum of the bytes before. -/
theorem State.loadByte_toNat_of_loadBytes_eq_append_csum {s : State} {f : FrameName} {bs : List Byte}
    (h : s.loadBytes f (bs.length + 1) = bs ++ [csum bs]) :
    (s.loadByte f bs.length).toNat = s.payloadSum f bs.length := by
  rw [State.loadBytes_succ] at h
  obtain ⟨hpayload, hlast⟩ := List.append_inj h (s.loadBytes_length f _)
  rw [← s.csum_loadBytes_toNat, hpayload, List.singleton_inj.mp hlast]

/-- R154: both frames of a command end in the sums of their payloads. -/
theorem State.checksums_of_loadBytes {s : State} {p : Command} (hA : s.loadBytes .A 20 = frameA p)
    (hB : s.loadBytes .B 19 = frameB p) :
    (s.loadByte .A 19).toNat = s.payloadSum .A 19 ∧ (s.loadByte .B 18).toNat = s.payloadSum .B 18 :=
  ⟨State.loadByte_toNat_of_loadBytes_eq_append_csum (bs := payloadA p) hA,
    State.loadByte_toNat_of_loadBytes_eq_append_csum (bs := payloadB p) hB⟩

/-- After stage CHECKSUM the frames of the command stand in FA and FB (R180). -/
theorem State.PipelineInv.framesReady {s : State} (h : s.PipelineInv) (hg : s.stage = .emit ∨ s.stage = .done) :
    s.FramesReady := by
  rcases hg with hg | hg
  · exact ((s.pipelineInv_emit hg).mp h).1
  · exact ((s.pipelineInv_done hg).mp h).1

theorem State.FramesReady.loadBytes {s : State} (h : s.FramesReady) :
    s.loadBytes .A 20 = frameA s.p ∧ s.loadBytes .B 19 = frameB s.p := by
  obtain ⟨-, -, -, hA, hB⟩ := h
  exact ⟨s.loadBytes_of_holds .A _ 20 (le_refl 20) hA, s.loadBytes_of_holds .B _ 19 (le_refl 19) hB⟩

end Sys2Proof.Machine
end

section
/-! The statements about the checksums (42_checksum.md). -/

namespace Sys2Proof.Machine

/-- Settles O36, by induction on the bytes, from any value already accumulated. -/
theorem checksumIsTheSumModulo256 : Obligations.ChecksumIsTheSumModulo256 := csum_toNat

/-- Settles O37: both operations store the checksum of the first 19 bytes at offset 19. -/
theorem checksumAIsWritten : Obligations.ChecksumAIsWritten := by
  intro i hi s
  have hexec : exec i s = .next s.csumA := by
    fin_cases hi <;> rfl
  exact ⟨s.csumA, hexec, rfl, s.loadByte_storeByte_csum_toNat .A 19, s.loadByte_storeByte_of_ne .A 19 _⟩

/-- Settles O38: both operations store the checksum of the first 18 bytes at offset 18. -/
theorem checksumBIsWritten : Obligations.ChecksumBIsWritten := by
  intro i hi s
  have hexec : exec i s = .next s.csumB := by
    fin_cases hi <;> rfl
  exact ⟨s.csumB, hexec, rfl, s.loadByte_storeByte_csum_toNat .B 18, s.loadByte_storeByte_of_ne .B 18 _⟩

/-- Settles O39: in EMIT and DONE, and after ENCODE, the frames read as the payloads of a command with their
checksums. -/
theorem framesCarryTheirChecksums : Obligations.FramesCarryTheirChecksums := by
  constructor
  case left =>
    intro s h hg
    obtain ⟨hA, hB⟩ := (h.framesReady hg).loadBytes
    exact State.checksums_of_loadBytes hA hB
  case right =>
    intro s hb
    obtain ⟨-, hA, hB, -⟩ := s.encodeAll_of_slots hb
    exact ⟨s.encodeAll, rfl, State.checksums_of_loadBytes hA hB⟩

end Sys2Proof.Machine
end

section
/-! SUPPORT. What one emission appends, entry by entry, and what the durations sum to (43_pulse_sequencer.md). -/

namespace Sys2Proof.Machine

/-! ### Entries appended where there is room -/

/-- R10: entries for which SEQ has room stand after those that were there; K counts them, nothing else changes. -/
theorem State.emitAll_appends (s : State) (ds : List Duration) (h : s.k + ds.length ≤ 644) :
    s.emitAll ds = { s with seq := (s.emitAll ds).seq, k := s.k + ds.length } ∧
    (s.emitAll ds).seq.length = s.seq.length + ds.length ∧ (s.emitAll ds).seq.take s.seq.length = s.seq ∧
    ∀ m, (s.emitAll ds).seq[s.seq.length + m]? = ds[m]? := by
  rw [State.emitAll_fits s ds h]
  refine ⟨rfl, List.length_append, List.take_left, fun m => ?_⟩
  rw [List.getElem?_append_right (Nat.le_add_right _ m), Nat.add_sub_cancel_left]

/-! ### The entries of a byte and of a frame -/

theorem byteSymbols_getElem?_mark (v : Byte) (j : Nat) (hj : j < 8) : (byteSymbols v)[2 * j]? = some tMark := by
  rw [byteSymbols_getElem? v _ (by omega), if_pos (Nat.mul_mod_right 2 j)]

/-- R168, read by offset and bit: the space of bit `j` of the byte at offset `i`. -/
theorem State.frameEntry_space (s : State) (f : FrameName) (i j : Nat) (hj : j < 8) :
    s.frameEntry f (16 * i + 2 * j + 1) = if (s.loadByte f i).getLsbD j then 1300 else 440 := by
  have hoffset : (16 * i + 2 * j + 1) / 16 = i := by omega
  have hbit : (16 * i + 2 * j + 1) % 16 / 2 = j := by omega
  rw [State.frameEntry, if_neg (by omega), hoffset, hbit]
  rfl

theorem byteSymbols_eq (v : Byte) :
    byteSymbols v = (List.range 8).flatMap fun j => [440, if v.getLsbD j then 1300 else 440] := by
  simp only [byteSymbols, bitSymbol_eq]

theorem State.frameSymbols_loadBytes_eq (s : State) (f : FrameName) (n : Nat) :
    frameSymbols (s.loadBytes f n) = (List.range n).flatMap fun i => (List.range 8).flatMap fun j =>
      [440, if (s.loadByte f i).getLsbD j then 1300 else 440] := by
  simp only [frameSymbols, State.loadBytes, List.flatMap_map, byteSymbols_eq]

/-! ### The entries by their index -/

theorem symLeader_getD (k : Nat) (hk : k ≤ 9) : symLeader.getD k 0 = 440 := by
  interval_cases k <;> rfl

theorem symStop_getD (k : Nat) (hk : k < 2) : symStop.getD k 0 = 440 := by
  interval_cases k <;> rfl

/-- R187: in EMIT, an index of the sequence has a word on offer. -/
theorem State.outValid_of_emit (s : State) (hstage : s.stage = .emit) (hk : s.k < 644) : s.outValid = true := by
  simp [State.outValid, hstage, seqLen, hk]

/-! ### The sum of the durations -/

/-- How long a list of entries lasts (R173). -/
def totalDuration (ds : List Duration) : Nat := (ds.map BitVec.toNat).sum

@[simp] theorem totalDuration_append (ds es : List Duration) :
    totalDuration (ds ++ es) = totalDuration ds + totalDuration es := by
  simp [totalDuration]

theorem totalDuration_bitSymbol (b : Bool) : totalDuration (bitSymbol b) = 880 + if b then 860 else 0 := by
  cases b <;> rfl

/-- R173: every bit lasts 880, and 860 more when it is 1. -/
theorem totalDuration_bits (v : Byte) (js : List Nat) :
    totalDuration (js.flatMap fun j => bitSymbol (v.getLsbD j)) =
      880 * js.length + 860 * (js.filter v.getLsbD).length := by
  induction js with
  | nil => rfl
  | cons j js ih =>
    rw [List.flatMap_cons, totalDuration_append, ih, totalDuration_bitSymbol, List.length_cons, List.filter_cons]
    split_ifs with hbit
    · rw [List.length_cons]; omega
    · omega

theorem totalDuration_byteSymbols (v : Byte) : totalDuration (byteSymbols v) = 7040 + 860 * onesOf v :=
  totalDuration_bits v (List.range 8)

theorem totalDuration_frameSymbols (bs : List Byte) :
    totalDuration (frameSymbols bs) = 7040 * bs.length + 860 * (bs.map onesOf).sum := by
  induction bs with
  | nil => rfl
  | cons v bs ih =>
    have hcons : frameSymbols (v :: bs) = byteSymbols v ++ frameSymbols bs := List.flatMap_cons
    rw [hcons, totalDuration_append, totalDuration_byteSymbols, ih, List.length_cons, List.map_cons, List.sum_cons]
    omega

/-- R173: the leader lasts 4400, each marker 30890 and the stop 880, beside the bits of the frames. -/
theorem totalDuration_sequenceOf (a b : List Byte) : totalDuration (sequenceOf a b) =
    67060 + 7040 * (a.length + b.length) + 860 * ((a.map onesOf).sum + (b.map onesOf).sum) := by
  have hleader : totalDuration symLeader = 4400 := rfl
  have hmarker : totalDuration symMarker = 30890 := rfl
  have hstop : totalDuration symStop = 880 := rfl
  simp only [sequenceOf, totalDuration_append, totalDuration_frameSymbols, hleader, hmarker, hstop]
  omega

theorem State.onesInFrames_eq (s : State) :
    s.onesInFrames = ((s.loadBytes .A 20).map onesOf).sum + ((s.loadBytes .B 19).map onesOf).sum := by
  simp only [State.onesInFrames, State.loadBytes, List.map_map, Function.comp_def]

end Sys2Proof.Machine
end

section
/-! The statements about the pulse sequencer (43_pulse_sequencer.md). -/

namespace Sys2Proof.Machine

/-- Settles O44: the entries of the byte are appended, and each bit has two of them. -/
theorem byteIsEmittedBitZeroFirst : Obligations.ByteIsEmittedBitZeroFirst := by
  intro v s hk
  obtain ⟨hframe, hlength, hkept, hentry⟩ :=
    s.emitAll_appends (byteSymbols v) (by rw [byteSymbols_length]; omega)
  rw [byteSymbols_length] at hframe hlength
  refine ⟨s.emitAll (byteSymbols v), congrArg Host.Outcome.next (s.emitByte_eq v), hframe, hlength, hkept,
    fun j hj => ⟨?mark, ?space⟩⟩
  case mark => rw [hentry, byteSymbols_getElem?_mark v j hj]; rfl
  case space => rw [Nat.add_assoc, hentry, byteSymbols_getElem?_space v j hj]; rfl

/-- Settles O45: the entries of the bytes are appended, those of offset `i` from `16 * i` on. -/
theorem frameIsEmittedInOffsetOrder : Obligations.FrameIsEmittedInOffsetOrder := by
  intro f s hk
  have hlen : (frameSymbols (s.loadBytes f f.length)).length = 16 * f.length := by
    rw [frameSymbols_length, State.loadBytes_length]
  obtain ⟨hframe, hlength, hkept, hentry⟩ := s.emitAll_appends _ (hlen.symm ▸ hk)
  rw [hlen] at hframe hlength
  have hexec : exec (.emitFrame f f.length) s = .next (s.emitAll (frameSymbols (s.loadBytes f f.length))) :=
    (if_pos (le_refl f.length)).trans (congrArg Host.Outcome.next (s.emitFrame_eq f f.length))
  refine ⟨_, hexec, hframe, hlength, hkept, fun i j hi hj => ⟨?mark, ?space⟩⟩
  case mark =>
    rw [Nat.add_assoc, hentry, State.frameSymbols_loadBytes_getElem? _ _ _ _ (by omega),
      State.frameEntry_of_even _ _ _ (by omega)]
  case space =>
    rw [Nat.add_assoc, Nat.add_assoc, hentry, ← Nat.add_assoc,
      State.frameSymbols_loadBytes_getElem? _ _ _ _ (by omega), State.frameEntry_space _ _ _ _ hj]

/-- Settles O47: the sequence of the two frames, with its segments written out. -/
theorem sequenceIsTheSixSegments : Obligations.SequenceIsTheSixSegments := by
  intro s
  rw [← s.frameSymbols_loadBytes_eq .A 20, ← s.frameSymbols_loadBytes_eq .B 19]
  exact congrArg Host.Outcome.next s.sequence_eq

/-- Settles O48: SEQUENCE leaves the entry of the index, EMIT offers it, and the rule's cases are those of the
definition with the leader and the stop read off. -/
theorem sequenceEntryByIndex : Obligations.SequenceEntryByIndex := by
  intro s k hk
  have hentry := s.sequence_seq_getElem? k hk
  refine ⟨s.sequence, rfl, hentry, ?offered, ?byCase⟩
  case offered =>
    rintro hstage rfl
    exact ⟨s.outValid_of_emit hstage hk, hentry.symm⟩
  case byCase =>
    refine ite_congr rfl (fun hleader => symLeader_getD k hleader) fun _ => ?_
    refine ite_congr rfl (fun _ => rfl) fun _ => ?_
    refine ite_congr rfl (fun _ => rfl) fun _ => ?_
    refine ite_congr rfl (fun _ => rfl) fun _ => ?_
    exact ite_congr rfl (fun _ => rfl) fun _ => symStop_getD (k - 642) (by omega)

/-- Settles O49: ENCODE leaves the sequence of the two frames of its slots. -/
theorem everySequenceHas644Entries : Obligations.EverySequenceHas644Entries := by
  intro s hb
  obtain ⟨-, -, -, hseq⟩ := s.encodeAll_of_slots hb
  refine ⟨s.encodeAll, rfl, ?_, ?_⟩
  · rw [hseq, encodeFunction_length]
  · rw [hseq]; rfl

/-- Settles O51, by the durations of the six segments. -/
theorem durationsSumByTheOneBits : Obligations.DurationsSumByTheOneBits := by
  intro s
  refine ⟨_, congrArg Host.Outcome.next s.sequence_eq, (totalDuration_sequenceOf _ _).trans ?_⟩
  rw [State.loadBytes_length, State.loadBytes_length, State.onesInFrames_eq]

/-- Settles O41: both operations emit the leader. -/
theorem leaderIsEmitted : Obligations.LeaderIsEmitted := by
  intro i hi s hk
  have hexec : exec i s = .next (s.emitAll symLeader) := by
    fin_cases hi <;> rfl
  exact hexec.trans (congrArg Host.Outcome.next (s.emitAll_fits symLeader (Nat.add_le_add_right hk 10)))

/-- Settles O42: both operations emit the marker. -/
theorem markerIsEmitted : Obligations.MarkerIsEmitted := by
  intro i hi s hk
  have hexec : exec i s = .next (s.emitAll symMarker) := by
    fin_cases hi <;> rfl
  exact hexec.trans (congrArg Host.Outcome.next (s.emitAll_fits symMarker (Nat.add_le_add_right hk 4)))

/-- Settles O43: each operation emits the two entries beside it. -/
theorem bitAndStopAreEmitted : Obligations.BitAndStopAreEmitted := by
  intro x hx s hk
  have hexec : exec x.1 s = .next (s.emitAll x.2) := by
    fin_cases hx <;> rfl
  have htwo : x.2.length = 2 := by
    fin_cases hx <;> rfl
  rw [hexec, s.emitAll_fits x.2 (by omega), htwo]

end Sys2Proof.Machine
end

section
/-! SUPPORT. The queue of a block: the operations left and the inputs to come, the model's own two fields (log entries 3
and 4). An operation reads neither, but for ENCODE outside BUSY, and every well-formed operation goes on. -/

namespace Sys2Proof.Machine

/-- R200: a well-formed operation goes on. -/
theorem exec_next_of_wf (i : Instr) (s : State) (hi : i.wf = true) : ∃ t, exec i s = .next t := by
  cases i
  case emitFrame f n =>
    obtain rfl : n = f.length := by simpa [Instr.wf] using hi
    exact ⟨_, if_pos (le_refl f.length)⟩
  all_goals exact ⟨_, rfl⟩

/-- The decoder reads well-formed operations only, so what it reads goes on. -/
theorem exec_next_of_decode {bs rest : List Byte} {i : Instr} (h : decode bs = .ok (i, rest)) (s : State) :
    ∃ t, exec i s = .next t :=
  exec_next_of_wf i s (decodedOperationsAreWellFormed bs i rest h).1

/-- The state with another queue. -/
def State.withQueue (s : State) (bs : List Byte) (qs : List Pins) : State := { s with ops := bs, inputs := qs }

@[simp] theorem State.withQueue_stage (s : State) (bs : List Byte) (qs : List Pins) :
    (s.withQueue bs qs).stage = s.stage := rfl
@[simp] theorem State.withQueue_k (s : State) (bs : List Byte) (qs : List Pins) : (s.withQueue bs qs).k = s.k := rfl
@[simp] theorem State.withQueue_ops (s : State) (bs : List Byte) (qs : List Pins) : (s.withQueue bs qs).ops = bs := rfl

theorem State.emitAll_withQueue (s : State) (bs : List Byte) (qs : List Pins) (ds : List Duration) :
    (s.withQueue bs qs).emitAll ds = (s.emitAll ds).withQueue bs qs := by
  rw [State.emitAll_eq, State.emitAll_eq]
  rfl

theorem State.storeByte_withQueue (s : State) (bs : List Byte) (qs : List Pins) (f : FrameName) (i : Nat) (v : Byte) :
    (s.withQueue bs qs).storeByte f i v = (s.storeByte f i v).withQueue bs qs := by cases f <;> rfl

theorem State.storeBytes_withQueue (s : State) (bs : List Byte) (qs : List Pins) (f : FrameName) (i : Nat)
    (vs : List Byte) : (s.withQueue bs qs).storeBytes f i vs = (s.storeBytes f i vs).withQueue bs qs := by
  induction vs generalizing s i with
  | nil => rfl
  | cons v vs ih =>
    rw [State.storeBytes_cons, State.storeByte_withQueue, ih, State.storeBytes_cons]

/-- A byte stored when a condition selects it, such as a form of FB[6]. -/
theorem State.storeByteIf_withQueue (s : State) (bs : List Byte) (qs : List Pins) (c : Prop) [Decidable c] (i : Nat)
    (v : Byte) : (if c then (s.withQueue bs qs).storeByte .B i v else s.withQueue bs qs) =
      (if c then s.storeByte .B i v else s).withQueue bs qs := by
  split_ifs <;> rfl

theorem State.normField_withQueue {α : Type} (s : State) (bs : List Byte) (qs : List Pins) (f : Field) (slot : Slot)
    (valueOf : Raw → Option α) (dflt : α) (write : Command → α → Command) :
    (s.withQueue bs qs).normField f slot valueOf dflt write =
      (s.normField f slot valueOf dflt write).withQueue bs qs := by
  cases slot with
  | none => rfl
  | some r => cases hv : valueOf r <;> simp only [State.normField, hv] <;> rfl

/-- An operation performed on another queue: the same effect, and the queue stays. -/
theorem exec_withQueue (i : Instr) (s t : State) (bs : List Byte) (qs : List Pins) (hi : i = .encode → s.busy = true)
    (h : exec i s = .next t) : exec i (s.withQueue bs qs) = .next (t.withQueue bs qs) := by
  cases i
  case encode =>
    have hb := hi rfl
    obtain rfl : s = t := (s.encodeAll_of_busy hb).symm.trans (Host.Outcome.next.inj h)
    exact congrArg Host.Outcome.next ((s.withQueue bs qs).encodeAll_of_busy hb)
  case emitFrame f n =>
    by_cases hn : n ≤ f.length
    · obtain rfl : s.emitFrame f n = t := by simpa [exec, execEmitFrame, hn] using h
      have hload : (s.withQueue bs qs).loadBytes f n = s.loadBytes f n := by cases f <;> rfl
      simp only [exec, execEmitFrame, if_pos hn, State.emitFrame_eq, hload, State.emitAll_withQueue]
    · simp [exec, execEmitFrame, hn] at h
  all_goals obtain rfl := Host.Outcome.next.inj h
  case loadDefaults => rfl
  case normTemperature | normAutotemp | normFan | normSwing | normState | normMode | normOntimer | normOfftimer
      | normStreamer => exact congrArg Host.Outcome.next (s.normField_withQueue bs qs _ _ _ _ _)
  case emitLeader | emitMarker | emitStop | leader | marker | stop | bit0 | bit1 =>
    exact congrArg Host.Outcome.next (s.emitAll_withQueue bs qs _)
  case emitBit b => simp only [exec, execEmitBit, State.emitBit_eq, State.emitAll_withQueue]
  case emitByte v => simp only [exec, execEmitByte, State.emitByte_eq, State.emitAll_withQueue]
  case sequence => simp only [exec, execSequence, State.sequence_eq]; rfl
  case fb6Autodry | fb6Coldhot | fb6Fan => exact congrArg Host.Outcome.next (s.storeByteIf_withQueue bs qs _ 6 _)
  case buildA | fa5to7 | fa9to18 | fb13to14 => exact congrArg Host.Outcome.next (s.storeBytes_withQueue bs qs _ _ _)
  case buildB =>
    simp only [exec, execBuildB, State.buildB_eq, State.storeBytes_withQueue]
    rfl
  all_goals exact congrArg Host.Outcome.next (s.storeByte_withQueue bs qs _ _ _)

/-- R185: a taken word does not depend on the queue. -/
theorem State.wordTaken_withQueue (s : State) (bs : List Byte) (qs : List Pins) :
    (s.withQueue bs qs).wordTaken = s.wordTaken.withQueue bs qs := by
  have hemit : (s.withQueue bs qs).emit s.outWord = (s.emit s.outWord).withQueue bs qs :=
    s.emitAll_withQueue bs qs [s.outWord]
  have hword : (s.withQueue bs qs).outWord = s.outWord := rfl
  simp only [State.wordTaken, hword, hemit, State.withQueue_k]
  by_cases hk : seqLen ≤ (s.emit s.outWord).k
  · rw [if_pos hk, if_pos hk]
    rfl
  · rw [if_neg hk, if_neg hk]

end Sys2Proof.Machine
end

section
/-! SUPPORT. The start and the output port (R181, R185, R187): what an advance does in each stage. -/

namespace Sys2Proof.Machine

/-- R185, R223: the waiting block accepts a start or stays as it is. -/
theorem State.advance_of_waiting (s : State) (hg : s.stage = .idle ∨ s.stage = .done) :
    s.advance = if s.pins.start then s.startAccepted s.pins.slots else s := by
  rcases hg with hg | hg <;> simp [State.advance, hg]

theorem State.advance_of_normalize (s : State) (hg : s.stage = .normalize) :
    s.advance = (s.setStage .build).setOps (programBytes buildProgram) := by simp [State.advance, hg]

theorem State.advance_of_build (s : State) (hg : s.stage = .build) :
    s.advance = (s.setStage .checksum).setOps (programBytes checksumProgram) := by simp [State.advance, hg]

theorem State.advance_of_checksum (s : State) (hg : s.stage = .checksum) :
    s.advance = s.clearSeq.setStage .emit := by simp [State.advance, hg]

/-- R187: a word is taken when the consumer is ready. -/
theorem State.advance_of_emit (s : State) (hg : s.stage = .emit) :
    s.advance = if s.pins.outReady then s.wordTaken else s := by simp [State.advance, hg]

theorem State.busy_iff (s : State) :
    s.busy = true ↔ s.stage = .normalize ∨ s.stage = .build ∨ s.stage = .checksum ∨ s.stage = .emit := by
  cases hg : s.stage <;> simp [State.busy, hg]

theorem State.wordTaken_raw (s : State) : s.wordTaken.raw = s.raw := by
  obtain ⟨hraw, -⟩ := s.sameControl_emitAll [s.outWord]
  rw [State.wordTaken, apply_ite State.raw]
  exact (ite_self _).trans hraw

/-- R181: an advance while BUSY keeps the captured slots. -/
theorem State.advance_raw_of_busy (s : State) (hb : s.busy = true) : s.advance.raw = s.raw := by
  rcases s.busy_iff.mp hb with hg | hg | hg | hg
  · rw [s.advance_of_normalize hg]; rfl
  · rw [s.advance_of_build hg]; rfl
  · rw [s.advance_of_checksum hg]; rfl
  · rw [s.advance_of_emit hg, apply_ite State.raw, s.wordTaken_raw, ite_self]

/-- R181: an operation while BUSY keeps the captured slots; ENCODE has no effect then. -/
theorem exec_raw_of_busy (i : Instr) (s t : State) (hb : s.busy = true) (h : exec i s = .next t) : t.raw = s.raw := by
  by_cases hi : i = .encode
  · subst hi
    rw [← Host.Outcome.next.inj h, s.encodeAll_of_busy hb]
  · obtain ⟨hraw, -⟩ := exec_sameControl i hi s t h
    exact hraw

@[simp] theorem State.withQueue_cons_pins (s : State) (bs : List Byte) (q : Pins) (qs : List Pins) :
    (s.withQueue bs (q :: qs)).pins = q := rfl

/-- R185: an advance while BUSY reads of the inputs only whether the consumer is ready. -/
theorem State.advance_tick_congr (s : State) (q r : Pins) (qs : List Pins) (hb : s.busy = true)
    (hready : q.outReady = r.outReady) :
    (s.withQueue s.ops (q :: qs)).advance.tick = (s.withQueue s.ops (r :: qs)).advance.tick := by
  rcases s.busy_iff.mp hb with hg | hg | hg | hg
  · simp only [State.advance_of_normalize, State.withQueue_stage, hg]; rfl
  · simp only [State.advance_of_build, State.withQueue_stage, hg]; rfl
  · simp only [State.advance_of_checksum, State.withQueue_stage, hg]; rfl
  · simp only [State.advance_of_emit, State.withQueue_stage, hg, State.withQueue_cons_pins, hready,
      State.wordTaken_withQueue, apply_ite State.tick]
    rfl

/-- R185: an operation of a BUSY block reads nothing of the inputs. -/
theorem State.perform_congr (s : State) (q r : Pins) (qs : List Pins) (hb : s.busy = true) :
    (s.withQueue s.ops (q :: qs)).perform = (s.withQueue s.ops (r :: qs)).perform := by
  cases hd : decode s.ops with
  | error e => simp only [State.perform, State.withQueue_ops, hd]
  | ok x =>
    obtain ⟨i, rest⟩ := x
    obtain ⟨t, ht⟩ := exec_next_of_decode hd s
    have hperform (x : Pins) : (s.withQueue s.ops (x :: qs)).perform = .next (t.withQueue rest qs) := by
      have hexec : exec i ((s.withQueue s.ops (x :: qs)).setOps rest) = .next (t.withQueue rest (x :: qs)) :=
        exec_withQueue i s t rest (x :: qs) (fun _ => hb) ht
      rw [(s.withQueue s.ops (x :: qs)).perform_of_decode i rest hd, hexec]
      rfl
    rw [hperform, hperform]

end Sys2Proof.Machine
end

section
/-! SUPPORT. The command port: the slot encoding (R188) and the names of the presenter (R186). -/

namespace Sys2Proof.Machine

/-! ### Symbols and their codes -/

/-- R188: the seven strings of the symbol codes 0 to 6. -/
def listedSymbols : List String := ["auto", "dry", "cold", "hot", "fan", "quiet", "nice"]

theorem symbolOf_not_listed (n : Nat) (hn : 6 < n) : symbolOf n ∉ listedSymbols := by
  obtain ⟨m, rfl⟩ := Nat.exists_eq_add_of_le' hn
  have hhead : (symbolOf (m + 7)).toList.head? = some '?' := by
    simp [symbolOf]
  intro hmem
  have hlisted : ∀ x ∈ listedSymbols, x.toList.head? ≠ some '?' := by decide
  exact hlisted _ hmem hhead

theorem symbolCode_lt (x : String) : symbolCode x < 8 := by
  unfold symbolCode
  split_ifs <;> decide

/-- R188: the code of a listed string stands for it; every other string has the code 7. -/
theorem symbolOf_symbolCode (x : String) (hx : x ∈ listedSymbols) : symbolOf (symbolCode x) = x := by
  have hall : ∀ y ∈ listedSymbols, symbolOf (symbolCode y) = y := by decide
  exact hall x hx

theorem symbolCode_of_not_listed (x : String) (hx : x ∉ listedSymbols) : symbolCode x = 7 := by
  simp only [listedSymbols, List.mem_cons, List.not_mem_nil, or_false, not_or] at hx
  simp [symbolCode, hx]

/-! ### What the block reads from the port -/

/-- A raw value that is valid for no field. -/
def Raw.Foreign (r : Raw) : Prop := ∀ f, ¬ inDomain f r

theorem foreign_other : Raw.Foreign .other := fun f => by cases f <;> simp [inDomain]

theorem foreign_int (z : Int) (hz : ¬ (-32 ≤ z ∧ z < 32)) : Raw.Foreign (.int z) := fun f => by
  cases f <;> simp [inDomain] <;> omega

theorem foreign_sym (x : String) (hx : x ∉ listedSymbols) : Raw.Foreign (.sym x) := fun f => by
  simp only [listedSymbols, List.mem_cons, List.not_mem_nil, or_false, not_or] at hx
  cases f <;> simp [inDomain, hx]

theorem fitsIn_of_small (w : Nat) (z : Int) (hw : 6 ≤ w) (hz : -32 ≤ z ∧ z < 32) : fitsIn w z = true := by
  have hpow : 2 ^ 6 ≤ 2 ^ w := Nat.pow_le_pow_right (by decide) hw
  rw [fitsIn, beq_iff_eq, BitVec.toInt_ofInt]
  apply Int.bmod_eq_of_le <;> omega

/-- R188: the block reads what was presented, or both are valid for no field. -/
theorem slotThroughPort_some (w : Nat) (hw : 6 ≤ w) (r : Raw) :
    slotThroughPort w (some r) = some r ∨ r.Foreign ∧ ∃ q, slotThroughPort w (some r) = some q ∧ q.Foreign := by
  have hpow : 2 ^ 6 ≤ 2 ^ w := Nat.pow_le_pow_right (by decide) hw
  cases r with
  | int z =>
    by_cases hfits : fitsIn w z = true
    · left
      have hval : (BitVec.ofInt w z).toInt = z := by simpa [fitsIn] using hfits
      simp [slotThroughPort, slotOfBits, tagOf, valOf, hfits, hval]
    · refine .inr ⟨foreign_int z fun hz => hfits (fitsIn_of_small w z hw hz), .other, ?_, foreign_other⟩
      simp [slotThroughPort, slotOfBits, tagOf, hfits]
  | bool b =>
    left
    have hbit : (BitVec.ofNat w b.toNat).getLsbD 0 = b := by
      rw [BitVec.getLsbD_ofNat, decide_eq_true (show 0 < w by omega), Bool.true_and]
      cases b <;> rfl
    simp [slotThroughPort, slotOfBits, tagOf, valOf, hbit]
  | sym x =>
    have hread : slotThroughPort w (some (.sym x)) = some (.sym (symbolOf (symbolCode x))) := by
      have hcode : symbolCode x % 2 ^ w = symbolCode x := Nat.mod_eq_of_lt (by have := symbolCode_lt x; omega)
      simp [slotThroughPort, slotOfBits, tagOf, valOf, hcode]
    rw [hread]
    by_cases hx : x ∈ listedSymbols
    · left
      rw [symbolOf_symbolCode x hx]
    · refine .inr ⟨foreign_sym x hx, _, rfl, foreign_sym _ ?_⟩
      rw [symbolCode_of_not_listed x hx]
      exact symbolOf_not_listed 7 (by decide)
  | other => exact .inl rfl

theorem slotThroughPort_valid (w : Nat) (hw : 6 ≤ w) (f : Field) (slot : Slot) :
    (slotThroughPort w slot).map (validFor f) = slot.map (validFor f) := by
  cases slot with
  | none => rfl
  | some r =>
    rcases slotThroughPort_some w hw r with h | ⟨hr, q, h, hq⟩
    · rw [h]
    · have hout (x : Raw) (hx : x.Foreign) : validFor f x = false := by
        rw [← Bool.not_eq_true, validFor_iff_inDomain]
        exact hx f
      rw [h, Option.map_some, Option.map_some, hout r hr, hout q hq]

/-- R112, R188: a register takes the same value from the slot as presented and as read. -/
theorem slotValue_throughPort {α : Type} (w : Nat) (hw : 6 ≤ w) (f : Field) (slot : Slot) (valueOf : Raw → Option α)
    (dflt : α) (hvalid : ∀ r, validFor f r = (valueOf r).isSome) :
    slotValue valueOf dflt (slotThroughPort w slot) = slotValue valueOf dflt slot := by
  cases slot with
  | none => rfl
  | some r =>
    rcases slotThroughPort_some w hw r with h | ⟨hr, q, h, hq⟩
    · rw [h]
    · rw [← slotValue_of_invalid (hq f) h valueOf dflt hvalid, ← slotValue_of_invalid (hr f) rfl valueOf dflt hvalid]

theorem PartialCommand.throughPort_get (w : Nat) (c : PartialCommand) (f : Field) :
    (c.throughPort w).get f = slotThroughPort w (c.get f) := by cases f <;> rfl

theorem normalizedCommand_throughPort (w : Nat) (hw : 6 ≤ w) (c : PartialCommand) :
    normalizedCommand (c.throughPort w) = normalizedCommand c := by
  have hvalue {α : Type} (f : Field) (slot : Slot) (valueOf : Raw → Option α) (dflt : α)
      (hvalid : ∀ r, validFor f r = (valueOf r).isSome) := slotValue_throughPort w hw f slot valueOf dflt hvalid
  simp only [normalizedCommand, PartialCommand.throughPort, Command.mk.injEq]
  exact ⟨hvalue .temperature _ _ _ fun _ => rfl, hvalue .autotemp _ _ _ fun _ => rfl, hvalue .fan _ _ _ fun _ => rfl,
    hvalue .swing _ _ _ fun _ => rfl, hvalue .state _ _ _ fun _ => rfl, hvalue .mode _ _ _ fun _ => rfl,
    hvalue .ontimer _ _ _ fun _ => rfl, hvalue .offtimer _ _ _ fun _ => rfl, hvalue .streamer _ _ _ fun _ => rfl⟩

/-! ### One slot of a command filled -/

theorem PartialCommand.get_set (c : PartialCommand) (f g : Field) (x : Slot) :
    (c.set f x).get g = if f = g then x else c.get g := by cases f <;> cases g <;> rfl

end Sys2Proof.Machine
end

section
/-! SUPPORT. What ENCODE leaves alone outside BUSY (R180, R182), and the debug taps (R212). -/

namespace Sys2Proof.Machine

/-- R180: stage NORMALIZE writes P and SUBST only. -/
theorem State.normalizeAll_frame (s : State) :
    s.normalizeAll = { s with p := s.normalizeAll.p, subst := s.normalizeAll.subst } := by
  have hfold (fs : List Field) (u : State) :
      fs.foldl State.norm u = { u with p := (fs.foldl State.norm u).p, subst := (fs.foldl State.norm u).subst } := by
    induction fs generalizing u with
    | nil => rfl
    | cons f fs ih => rw [List.foldl_cons, ih, State.norm_eq]
  exact hfold Field.all s.loadDefaults

@[simp] theorem State.storeBytes_raw (s : State) (f : FrameName) (i : Nat) (vs : List Byte) :
    (s.storeBytes f i vs).raw = s.raw := by
  obtain ⟨hraw, -, -, -⟩ := s.sameControl_storeBytes f i vs
  exact hraw

@[simp] theorem State.storeBytes_ops (s : State) (f : FrameName) (i : Nat) (vs : List Byte) :
    (s.storeBytes f i vs).ops = s.ops := by
  obtain ⟨-, -, hops, -⟩ := s.sameControl_storeBytes f i vs
  exact hops

@[simp] theorem State.storeBytes_inputs (s : State) (f : FrameName) (i : Nat) (vs : List Byte) :
    (s.storeBytes f i vs).inputs = s.inputs := by
  obtain ⟨-, -, -, hinputs⟩ := s.sameControl_storeBytes f i vs
  exact hinputs

@[simp] theorem State.buildAndEmit_raw (s : State) : s.buildAndEmit.raw = s.raw := by
  simp [State.buildAndEmit, State.sequence_eq, State.csumA, State.csumB, State.buildB_eq, State.buildA]

@[simp] theorem State.buildAndEmit_t (s : State) : s.buildAndEmit.t = timerWord s.p := by
  simp [State.buildAndEmit, State.sequence_eq, State.csumA, State.csumB]

@[simp] theorem State.buildAndEmit_ops (s : State) : s.buildAndEmit.ops = s.ops := by
  simp [State.buildAndEmit, State.sequence_eq, State.csumA, State.csumB, State.buildB_eq, State.buildA]

@[simp] theorem State.buildAndEmit_inputs (s : State) : s.buildAndEmit.inputs = s.inputs := by
  simp [State.buildAndEmit, State.sequence_eq, State.csumA, State.csumB, State.buildB_eq, State.buildA]

@[simp] theorem State.buildAndEmit_stage (s : State) : s.buildAndEmit.stage = .done := rfl

@[simp] theorem State.buildAndEmit_k (s : State) : s.buildAndEmit.k = 644 := by
  rw [State.buildAndEmit, State.sequence_eq, State.setStage_k]

/-- R182: outside BUSY, ENCODE captures the slots, leaves STAGE, K and T as at the end of an operation, and does not
touch the model's own fields. -/
theorem State.encodeAll_control (s : State) (hb : s.busy = false) :
    s.encodeAll.stage = .done ∧ s.encodeAll.raw = s.pins.slots ∧ s.encodeAll.t = timerWord s.encodeAll.p ∧
    s.encodeAll.k = 644 ∧ s.encodeAll.ops = s.ops ∧ s.encodeAll.inputs = s.inputs := by
  rw [State.encodeAll_of_not_busy s hb]
  refine ⟨State.buildAndEmit_stage _, ?_, ?_, State.buildAndEmit_k _, ?_, ?_⟩
  · rw [State.buildAndEmit_raw, State.normalizeAll_frame]; rfl
  · rw [State.buildAndEmit_t, State.buildAndEmit_p]
  · rw [State.buildAndEmit_ops, State.normalizeAll_frame]; rfl
  · rw [State.buildAndEmit_inputs, State.normalizeAll_frame]; rfl

/-! ### The bytes beyond the frames -/

/-- R120, R151: the stages after NORMALIZE write no byte beyond Frame A. -/
theorem State.buildAndEmit_loadByte_A_beyond (s : State) (i : Nat) (hi : 20 ≤ i) :
    s.buildAndEmit.loadByte .A i = s.loadByte .A i := by
  have hfa : s.buildAndEmit.fa = ((s.setStage .build).buildA.buildB.setStage .checksum).csumA.fa := by
    simp only [State.buildAndEmit, State.sequence_eq, State.setStage_fa, State.csumB, State.storeByteB_fa]
  have hbuilt : ((s.setStage .build).buildA.buildB.setStage .checksum).fa = (s.setStage .build).buildA.fa := by
    rw [State.setStage_fa, State.buildB_fa]
  calc s.buildAndEmit.loadByte .A i
      = ((s.setStage .build).buildA.buildB.setStage .checksum).csumA.loadByte .A i := congrArg (Memory.get · i) hfa
    _ = ((s.setStage .build).buildA.buildB.setStage .checksum).loadByte .A i :=
        State.loadByte_storeByte_of_ne _ .A 19 _ i (by omega)
    _ = (s.setStage .build).buildA.loadByte .A i := congrArg (Memory.get · i) hbuilt
    _ = s.loadByte .A i := State.loadByte_storeBytes_beyond _ .A (payloadA s.p ++ [0]) i hi

/-- R125, R152: the stages after NORMALIZE write no byte beyond Frame B. -/
theorem State.buildAndEmit_loadByte_B_beyond (s : State) (i : Nat) (hi : 19 ≤ i) :
    s.buildAndEmit.loadByte .B i = s.loadByte .B i := by
  have hfb : s.buildAndEmit.fb = ((s.setStage .build).buildA.buildB.setStage .checksum).csumA.csumB.fb := by
    simp only [State.buildAndEmit, State.sequence_eq, State.setStage_fb]
  have hbuilt : ((s.setStage .build).buildA.buildB.setStage .checksum).fb =
      ((s.setStage .build).buildA.storeBytes .B 0 (payloadB s.p ++ [0])).fb := by
    rw [State.setStage_fb, State.buildB_eq, State.buildA_p, State.setT_fb, State.setStage_p]
  have hfirst : (s.setStage .build).buildA.fb = s.fb := State.storeBytes_A_fb _ _ _
  have hsum (u : State) : u.csumA.csumB.loadByte .B i = u.loadByte .B i :=
    u.csumA.loadByte_storeByte_of_ne .B 18 _ i (by omega)
  calc s.buildAndEmit.loadByte .B i
      = ((s.setStage .build).buildA.buildB.setStage .checksum).csumA.csumB.loadByte .B i :=
        congrArg (Memory.get · i) hfb
    _ = ((s.setStage .build).buildA.buildB.setStage .checksum).loadByte .B i := hsum _
    _ = ((s.setStage .build).buildA.storeBytes .B 0 (payloadB s.p ++ [0])).loadByte .B i :=
        congrArg (Memory.get · i) hbuilt
    _ = (s.setStage .build).buildA.loadByte .B i := State.loadByte_storeBytes_beyond _ .B _ i hi
    _ = s.loadByte .B i := congrArg (Memory.get · i) hfirst

theorem State.normalizeAll_loadByte (s : State) (f : FrameName) (i : Nat) :
    s.normalizeAll.loadByte f i = s.loadByte f i := by
  rw [State.normalizeAll_frame]
  cases f <;> rfl

/-- R182: ENCODE writes no byte beyond the frames. -/
theorem State.encodeAll_loadByte_beyond (s : State) (hb : s.busy = false) (f : FrameName) (i : Nat)
    (hi : f.length ≤ i) : s.encodeAll.loadByte f i = s.loadByte f i := by
  rw [State.encodeAll_of_not_busy s hb]
  cases f with
  | A => rw [State.buildAndEmit_loadByte_A_beyond _ i hi, State.normalizeAll_loadByte]; rfl
  | B => rw [State.buildAndEmit_loadByte_B_beyond _ i hi, State.normalizeAll_loadByte]; rfl

/-! ### The debug taps -/

/-- R212, R221: the taps show the registers in IDLE, EMIT and DONE (log entry 20). -/
theorem State.taps_of_shown (s : State) (hg : s.stage = .idle ∨ s.stage = .emit ∨ s.stage = .done) :
    s.taps = some ⟨s.p, s.t, s.loadBytes .A 20, s.loadBytes .B 19⟩ := by
  rcases hg with hg | hg | hg <;> simp [State.taps, Config.hasDebugTaps, hg]

/-- R212: the taps show nothing before EMIT (log entry 20). -/
theorem State.taps_of_hidden (s : State) (hg : s.stage = .normalize ∨ s.stage = .build ∨ s.stage = .checksum) :
    s.taps = none := by
  rcases hg with hg | hg | hg <;> simp [State.taps, hg]

end Sys2Proof.Machine
end

section
/-! SUPPORT. How far an operation is from DONE (R184). -/

namespace Sys2Proof.Machine

@[simp] theorem programBytes_length (is : List Instr) : (programBytes is).length = 2 * is.length := by
  induction is with
  | nil => rfl
  | cons i is ih =>
    have hcons : programBytes (i :: is) = encode i ++ programBytes is := List.flatMap_cons
    rw [hcons, List.length_append, ih, List.length_cons]
    simp only [encode, List.length_cons, List.length_nil]
    omega

/-- R180: what is left of a stage are operations of the stages. -/
theorem State.PipelineInv.ops_eq {s : State} (h : s.PipelineInv) (hb : s.busy = true) :
    ∃ is, s.ops = programBytes is ∧ (∀ i ∈ is, i ∈ pipelineOperations) ∧ (s.stage = .emit → is = []) := by
  have hnormalize : ∀ i ∈ normalizeProgram, i ∈ pipelineOperations := by decide
  have hbuild : ∀ i ∈ buildProgram, i ∈ pipelineOperations := by decide
  have hchecksum : ∀ i ∈ checksumProgram, i ∈ pipelineOperations := by decide
  rcases s.busy_iff.mp hb with hg | hg | hg | hg
  · obtain ⟨j, -, hops, -⟩ := (s.pipelineInv_normalize hg).mp h
    exact ⟨_, hops, fun i hi => hnormalize i (List.mem_of_mem_drop hi), fun he => absurd (hg.symm.trans he) nofun⟩
  · obtain ⟨-, j, -, hops, -⟩ := (s.pipelineInv_build hg).mp h
    exact ⟨_, hops, fun i hi => hbuild i (List.mem_of_mem_drop hi), fun he => absurd (hg.symm.trans he) nofun⟩
  · obtain ⟨-, -, j, -, hops, -⟩ := (s.pipelineInv_checksum hg).mp h
    exact ⟨_, hops, fun i hi => hchecksum i (List.mem_of_mem_drop hi), fun he => absurd (hg.symm.trans he) nofun⟩
  · obtain ⟨⟨-, -, hops, -⟩, -⟩ := (s.pipelineInv_emit hg).mp h
    exact ⟨[], hops, fun i hi => absurd hi List.not_mem_nil, fun _ => rfl⟩

theorem wf_of_mem_pipelineOperations : ∀ i ∈ pipelineOperations, i.wf = true := by decide

/-- An operation performed leaves one operation less of its stage. -/
theorem State.remaining_lt_of_operation (s t : State) (hb : s.busy = true) (he : s.stage ≠ .emit)
    (hstage : t.stage = s.stage) (hops : s.ops.length = t.ops.length + 2) :
    t.remaining < s.remaining ∧ t.remaining ≠ 0 := by
  rcases s.busy_iff.mp hb with hg | hg | hg | hg
  case inr.inr.inr => exact absurd hg he
  all_goals
    simp only [State.remaining, hstage, hg, hops]
    omega

/-- R184: an advance leads to the next stage, whose operations are fewer than what was left, or takes a word. -/
theorem State.remaining_advance_lt (s : State) (h : s.PipelineInv) (hb : s.busy = true) (ho : s.ops = [])
    (hready : s.stage = .emit → s.pins.outReady = true) :
    s.advance.tick.remaining < s.remaining ∧ (s.advance.tick.remaining = 0 → s.advance.tick.stage = .done) := by
  rcases s.busy_iff.mp hb with hg | hg | hg | hg
  · rw [s.advance_of_normalize hg]
    simp [State.remaining, hg, ho, buildProgram]
  · rw [s.advance_of_build hg]
    simp [State.remaining, hg, ho, checksumProgram]
  · rw [s.advance_of_checksum hg]
    simp [State.remaining, hg, ho]
  · obtain ⟨-, hk, -⟩ := (s.pipelineInv_emit hg).mp h
    rw [s.advance_of_emit hg, if_pos (hready hg), s.wordTaken_of_room hk]
    by_cases hlast : s.k = 643
    · simp [State.remaining, hg, hlast]
    · have hless : 643 - s.k < 644 - s.k ∧ ¬ 643 - s.k = 0 := by omega
      simpa [State.remaining, hg, hlast] using hless

end Sys2Proof.Machine
end

section
/-! SUPPORT. The stepped operation: the steps of a block whose consumer takes every word, stage by stage (R180; log
entries 3 and 4). -/

namespace Sys2Proof.Machine

/-- The inputs with which an operation goes on undisturbed: no reset, and a consumer that takes every word. -/
def Undisturbed (qs : List Pins) : Prop := ∀ q ∈ qs, q.reset = false ∧ q.outReady = true

theorem Undisturbed.drop {qs : List Pins} (h : Undisturbed qs) (n : Nat) : Undisturbed (qs.drop n) :=
  fun q hq => h q (List.mem_of_mem_drop hq)

/-- Also past the end of the schedule the operation goes on (log entry 4). -/
theorem Undisturbed.pins {qs : List Pins} (h : Undisturbed qs) (s : State) (bs : List Byte) :
    (s.withQueue bs qs).pins.reset = false ∧ (s.withQueue bs qs).pins.outReady = true := by
  cases qs with
  | nil => exact ⟨rfl, rfl⟩
  | cons q qs => exact h q List.mem_cons_self

/-- The block reaches a state in a number of steps. -/
def ReachesIn (n : Nat) (s t : State) : Prop := Host.Core.run core n s = .next t

theorem ReachesIn.zero (s : State) : ReachesIn 0 s s := rfl

theorem ReachesIn.succ {n : Nat} {s t u : State} (h : step s = .next t) (g : ReachesIn n t u) :
    ReachesIn (n + 1) s u := by
  have hstep : core.step s = .next t := h
  simpa only [ReachesIn, Host.Core.run, hstep] using g

theorem ReachesIn.of_step {s t : State} (h : step s = .next t) : ReachesIn 1 s t := .succ h (.zero t)

theorem ReachesIn.trans {m n : Nat} {s t u : State} (h : ReachesIn m s t) (g : ReachesIn n t u) :
    ReachesIn (m + n) s u := by
  induction m generalizing s with
  | zero =>
    obtain rfl : s = t := Host.Outcome.next.inj h
    rwa [Nat.zero_add]
  | succ m ih =>
    rw [Nat.add_right_comm]
    cases hs : core.step s with
    | next r =>
      simp only [ReachesIn, Host.Core.run, hs] at h
      exact .succ hs (ih h)
    | fault e => simp [ReachesIn, Host.Core.run, hs] at h
    | refused r => simp [ReachesIn, Host.Core.run, hs] at h

/-- The operations left of a stage are performed, one a step. -/
theorem reachesIn_performAll (is : List Instr) (s t : State) (qs : List Pins) (hq : Undisturbed qs)
    (hmem : ∀ i ∈ is, i ∈ pipelineOperations) (h : performAll is s = .next t) :
    ReachesIn is.length (s.withQueue (programBytes is) qs) (t.withQueue [] (qs.drop is.length)) := by
  induction is generalizing s qs with
  | nil =>
    obtain rfl : s = t := Host.Outcome.next.inj h
    exact .zero _
  | cons i is ih =>
    have hi := hmem i List.mem_cons_self
    have hnotEncode : i ≠ .encode := by
      rintro rfl
      exact absurd hi (by decide)
    obtain ⟨u, hu⟩ := exec_next_of_wf i s (wf_of_mem_pipelineOperations i hi)
    have hrest : performAll is u = .next t := by simpa only [performAll, hu] using h
    have hexec := exec_withQueue i s u (programBytes is) qs (fun he => absurd he hnotEncode) hu
    have hdecode : decode (s.withQueue (programBytes (i :: is)) qs).ops = .ok (i, programBytes is) :=
      decode_encode_pipelineOperations i hi (programBytes is)
    have hstep : step (s.withQueue (programBytes (i :: is)) qs) =
        .next (u.withQueue (programBytes is) (qs.drop 1)) := by
      have hne : (s.withQueue (programBytes (i :: is)) qs).ops ≠ [] := List.cons_ne_nil _ _
      rw [step_of_ops_ne_nil _ (hq.pins s _).1 hne, State.perform_of_decode _ i _ hdecode, List.drop_one]
      exact congrArg tickOutcome hexec
    have hreach := ih u (qs.drop 1) (hq.drop 1) (fun j hj => hmem j (List.mem_cons_of_mem i hj)) hrest
    rw [List.drop_drop, Nat.add_comm] at hreach
    exact .succ hstep hreach

/-- A stage of the pipeline: its operations are performed, and the stage advances. -/
theorem reachesIn_stage (is : List Instr) (s t u : State) (bs : List Byte) (qs : List Pins) (hq : Undisturbed qs)
    (hmem : ∀ i ∈ is, i ∈ pipelineOperations) (h : performAll is s = .next t)
    (hadvance : ∀ rs, (t.withQueue [] rs).advance = u.withQueue bs rs) :
    ReachesIn (is.length + 1) (s.withQueue (programBytes is) qs) (u.withQueue bs (qs.drop (is.length + 1))) := by
  have hq' := hq.drop is.length
  have hstep : step (t.withQueue [] (qs.drop is.length)) = .next (u.withQueue bs (qs.drop (is.length + 1))) := by
    rw [step_of_ops_nil _ (hq'.pins t []).1 rfl, hadvance, ← List.tail_drop]
    rfl
  exact (reachesIn_performAll is s t qs hq hmem h).trans (.of_step hstep)

theorem reachesIn_normalize (s : State) (qs : List Pins) (hq : Undisturbed qs) (hg : s.stage = .normalize) :
    ReachesIn 11 (s.withQueue (programBytes normalizeProgram) qs)
      ((s.normalizeAll.setStage .build).withQueue (programBytes buildProgram) (qs.drop 11)) := by
  have hadvance (t : State) (ht : t.stage = .normalize) (rs : List Pins) : (t.withQueue [] rs).advance =
      (t.setStage .build).withQueue (programBytes buildProgram) rs := (t.withQueue [] rs).advance_of_normalize ht
  have hstage : s.normalizeAll.stage = .normalize := by rw [State.normalizeAll_frame]; exact hg
  exact reachesIn_stage normalizeProgram s s.normalizeAll _ _ qs hq (by decide) rfl (hadvance _ hstage)

theorem reachesIn_build (s : State) (qs : List Pins) (hq : Undisturbed qs) (hg : s.stage = .build) :
    ReachesIn 3 (s.withQueue (programBytes buildProgram) qs)
      ((s.buildA.buildB.setStage .checksum).withQueue (programBytes checksumProgram) (qs.drop 3)) := by
  have hadvance (t : State) (ht : t.stage = .build) (rs : List Pins) : (t.withQueue [] rs).advance =
      (t.setStage .checksum).withQueue (programBytes checksumProgram) rs := (t.withQueue [] rs).advance_of_build ht
  obtain ⟨-, hstage, -⟩ := (s.sameControl_storeBytes .A 0 (payloadA s.p ++ [0])).trans s.buildA.sameControl_buildB
  exact reachesIn_stage buildProgram s s.buildA.buildB _ _ qs hq (by decide) rfl (hadvance _ (hstage.trans hg))

theorem reachesIn_checksum (s : State) (qs : List Pins) (hq : Undisturbed qs) (hg : s.stage = .checksum) :
    ReachesIn 3 (s.withQueue (programBytes checksumProgram) qs)
      ((s.csumA.csumB.clearSeq.setStage .emit).withQueue [] (qs.drop 3)) := by
  have hadvance (t : State) (ht : t.stage = .checksum) (rs : List Pins) : (t.withQueue [] rs).advance =
      (t.clearSeq.setStage .emit).withQueue [] rs := (t.withQueue [] rs).advance_of_checksum ht
  exact reachesIn_stage checksumProgram s s.csumA.csumB _ _ qs hq (by decide) rfl (hadvance _ hg)

/-! ### EMIT -/

/-- The block with the first `n` words of its sequence handed over. -/
def State.handedOver (s : State) (n : Nat) : State :=
  { s with
    seq := (sequenceOf (s.loadBytes .A 20) (s.loadBytes .B 19)).take n
    k := n
    stage := if n = 644 then .done else .emit }

/-- R168: the next word handed over is the entry that K names. -/
theorem State.handedOver_wordTaken (s : State) (n : Nat) (hn : n < 644) :
    (s.handedOver n).wordTaken = s.handedOver (n + 1) := by
  have hseq : (s.handedOver n).seq ++ [(s.handedOver n).outWord] = (s.handedOver (n + 1)).seq := by
    simp only [State.handedOver, List.take_add_one, s.sequenceOf_loadBytes_getElem? n hn]
    rfl
  have hstage : (if (s.handedOver n).k = 643 then .done else (s.handedOver n).stage) =
      (s.handedOver (n + 1)).stage := by
    have hemit : (s.handedOver n).stage = .emit := if_neg (by omega)
    have hlast : (s.handedOver n).k = 643 ↔ n + 1 = 644 := Nat.succ_inj.symm
    rw [hemit]
    exact if_congr hlast rfl rfl
  rw [State.wordTaken_of_room _ hn, hseq, hstage]
  rfl

/-- R187: one word a step is handed over. -/
theorem reachesIn_handedOver (s : State) (qs : List Pins) (hq : Undisturbed qs) (n : Nat) (hn : n ≤ 644) :
    ReachesIn n ((s.handedOver 0).withQueue [] qs) ((s.handedOver n).withQueue [] (qs.drop n)) := by
  induction n with
  | zero => exact .zero _
  | succ n ih =>
    have hq' := hq.drop n
    have hstage : ((s.handedOver n).withQueue [] (qs.drop n)).stage = .emit := if_neg (by omega)
    have hstep : step ((s.handedOver n).withQueue [] (qs.drop n)) =
        .next ((s.handedOver (n + 1)).withQueue [] (qs.drop (n + 1))) := by
      rw [step_of_ops_nil _ (hq'.pins _ []).1 rfl, State.advance_of_emit _ hstage, if_pos (hq'.pins _ []).2,
        State.wordTaken_withQueue, State.handedOver_wordTaken s n hn, ← List.tail_drop]
      rfl
    exact (ih (by omega)).trans (.of_step hstep)

/-- R180: EMIT begins with no word handed over. -/
theorem State.handedOver_zero (s : State) : s.handedOver 0 = s.clearSeq.setStage .emit := rfl

/-- R167: all words handed over are what SEQUENCE emits. -/
theorem State.handedOver_all (s : State) : s.handedOver 644 = (s.setStage .emit).sequence.setStage .done := by
  rw [State.sequence_eq]
  have hload (f : FrameName) (n : Nat) : (s.setStage .emit).loadBytes f n = s.loadBytes f n := by cases f <;> rfl
  simp only [State.handedOver, hload]
  rw [List.take_of_length_le]
  · rfl
  · rw [sequenceOf_length, State.loadBytes_length, State.loadBytes_length]

/-! ### The operation -/

/-- R180: from the captured slots to DONE, the stages are those of ENCODE. -/
theorem reachesIn_operation (s : State) (qs : List Pins) (hq : Undisturbed qs) (hg : s.stage = .normalize) :
    ReachesIn 661 (s.withQueue (programBytes normalizeProgram) qs)
      (s.normalizeAll.buildAndEmit.withQueue [] (qs.drop 661)) := by
  have hnormalize := reachesIn_normalize s qs hq hg
  have hbuild := reachesIn_build (s.normalizeAll.setStage .build) _ (hq.drop 11) rfl
  have hchecksum := reachesIn_checksum ((s.normalizeAll.setStage .build).buildA.buildB.setStage .checksum) _
    (hq.drop 14) rfl
  have hemit := reachesIn_handedOver ((s.normalizeAll.setStage .build).buildA.buildB.setStage .checksum).csumA.csumB _
    (hq.drop 17) 644 (le_refl 644)
  rw [State.handedOver_zero, State.handedOver_all, List.drop_drop] at hemit
  rw [List.drop_drop] at hbuild hchecksum
  exact hnormalize.trans (hbuild.trans (hchecksum.trans hemit))

end Sys2Proof.Machine
end

section
/-! The statements about the ENCODE operation and the ports (44_encode_operation.md). -/

namespace Sys2Proof.Machine

/-- Settles O3: the accepted start evaluates, and of the things that a step can do only a start and a reset write
RAW. -/
theorem startCapturesTheSlots : Obligations.StartCapturesTheSlots := by
  constructor
  case left =>
    intro s hr ho hg hstart
    have hadvance : s.advance = s.startAccepted s.pins.slots := by rw [s.advance_of_waiting hg, if_pos hstart]
    exact ⟨_, step_of_ops_nil s hr ho, by rw [hadvance]; exact ⟨rfl, rfl, rfl, rfl, rfl, rfl, rfl, rfl, rfl⟩⟩
  case right =>
    intro s t hb hr h
    rcases step_cases s t h with ⟨hreset, -⟩ | ⟨-, -, rfl⟩ | ⟨-, i, rest, u, -, hx, rfl⟩
    · exact absurd (hreset.symm.trans hr) (by decide)
    · exact s.advance_raw_of_busy hb
    · exact exec_raw_of_busy i (s.setOps rest) u hb hx

/-- Settles O4: the waiting block by whether a start is presented; the BUSY block by what a step can do, a reset, an
advance or an operation. -/
theorem startWhileBusyHasNoEffect : Obligations.StartWhileBusyHasNoEffect := by
  refine ⟨?waiting, ?busy, ?encode⟩
  case waiting =>
    intro s hr ho hg
    refine ⟨_, step_of_ops_nil s hr ho, ?_⟩
    rw [s.advance_of_waiting hg]
    cases hstart : s.pins.start with
    | true => exact ⟨⟨fun _ => rfl, fun _ => rfl⟩, nofun⟩
    | false =>
      refine ⟨⟨fun hstage => ?_, nofun⟩, fun _ => rfl⟩
      rcases hg with hg | hg <;> exact absurd (hg.symm.trans hstage) nofun
  case busy =>
    intro s q r qs hb hreset hready
    show step (s.withQueue s.ops (q :: qs)) = step (s.withQueue s.ops (r :: qs))
    have hr : (s.withQueue s.ops (q :: qs)).pins.reset = (s.withQueue s.ops (r :: qs)).pins.reset := hreset
    cases hv : (s.withQueue s.ops (r :: qs)).pins.reset with
    | true => rw [step_of_reset _ (hr.trans hv), step_of_reset _ hv]; rfl
    | false =>
      by_cases ho : s.ops = []
      · rw [step_of_ops_nil _ (hr.trans hv) ho, step_of_ops_nil _ hv ho, s.advance_tick_congr q r qs hb hready]
      · rw [step_of_ops_ne_nil _ (hr.trans hv) ho, step_of_ops_ne_nil _ hv ho, s.perform_congr q r qs hb]
  case encode => exact fun s hb => congrArg Host.Outcome.next (s.encodeAll_of_busy hb)

/-- Settles O11: the tags and codes are those of the definitions, and what the block reads from the port differs from
what was presented only where neither is valid. -/
theorem slotEncodingKeepsTheCommand : Obligations.SlotEncodingKeepsTheCommand := by
  refine ⟨fun w val => ⟨fun _ => rfl, rfl, rfl, rfl, rfl⟩, by decide, symbolOf_not_listed,
    fun w c hw => ⟨?_, fun f => ?_⟩⟩
  · exact normalizedCommand_throughPort w hw c
  · rw [PartialCommand.throughPort_get, slotThroughPort_valid w hw]

/-- Settles O12: the names by their list, an item by what its name selects and whether that slot is filled. -/
theorem presenterFillsSlotsByName : Obligations.PresenterFillsSlotsByName := by
  refine ⟨by decide, fun name hname => ?others, fun _ => rfl, fun _ _ => rfl, fun _ _ => rfl,
    fun fold c name r rest => ⟨fun hnone => ?dropped, fun f x hf hfilled => ?refused, fun f hf hempty => ?filled⟩⟩
  case others =>
    simp only [List.mem_cons, List.not_mem_nil, or_false, not_or] at hname
    simp [fieldNamed, hname]
  case dropped => simp only [presentInto, hnone]
  case refused => simp [presentInto, hf, hfilled]
  case filled =>
    refine ⟨by simp [presentInto, hf, hempty], ?_, fun g hg => ?_⟩
    · rw [PartialCommand.get_set, if_pos rfl]
    · rw [PartialCommand.get_set, if_neg hg.symm]

/-- Settles O52: the registers after ENCODE by the stages that write them, the taps by their stages. -/
theorem encodeIsTheFunctionOfItsSlots : Obligations.EncodeIsTheFunctionOfItsSlots := by
  refine ⟨?encode, State.taps_of_shown, State.taps_of_hidden, ?reset, ?pipeline⟩
  case encode =>
    intro s hb
    obtain ⟨hp, hA, hB, hseq⟩ := s.encodeAll_of_slots hb
    obtain ⟨hstage, hraw, ht, hk, hops, hinputs⟩ := s.encodeAll_control hb
    rw [← hp] at hA hB
    refine ⟨s.encodeAll, rfl, hstage, hraw, hp, ht, hA, hB, hseq, hk, s.encodeAll_loadByte_beyond hb .A,
      s.encodeAll_loadByte_beyond hb .B, hops, hinputs, ?_⟩
    rw [s.encodeAll.taps_of_shown (.inr (.inr hstage)), hA, hB]
  case reset => exact fun s hr => ⟨_, step_of_reset s hr, State.taps_of_shown _ (.inl rfl)⟩
  case pipeline =>
    intro s h hg p
    have hready := h.framesReady hg
    obtain ⟨hA, hB⟩ := hready.loadBytes
    obtain ⟨hp, ht, -⟩ := hready
    rw [s.taps_of_shown (.inr hg), hA, hB, ht, hp]

/-- Settles O53: P, the frames and SEQ are functions of the slots. -/
theorem encodeDependsOnItsSlotsAlone : Obligations.EncodeDependsOnItsSlotsAlone := by
  intro s u hs hu hslots
  obtain ⟨hsp, hsA, hsB, hsseq⟩ := s.encodeAll_of_slots hs
  obtain ⟨hup, huA, huB, huseq⟩ := u.encodeAll_of_slots hu
  rw [← hslots] at hup huA huB huseq
  exact ⟨s.encodeAll, u.encodeAll, rfl, rfl, hsseq.trans huseq.symm, hsp.trans hup.symm, hsA.trans huA.symm,
    hsB.trans huB.symm⟩

/-- Settles O55: the start is one step, and the stages after it are those of ENCODE. -/
theorem steppedOperationIsEncode : Obligations.SteppedOperationIsEncode := by
  intro s q qs ho hg hinputs hreset hstart hq
  have hpins : s.pins = q := by rw [State.pins, hinputs, List.headD_cons]
  have hb : s.busy = false := by rcases hg with hg | hg <;> simp [State.busy, hg]
  obtain ⟨-, -, -, hseq⟩ := s.encodeAll_of_slots hb
  obtain ⟨hstage, -, -, -, hops, -⟩ := s.encodeAll_control hb
  refine ⟨s.encodeAll, rfl, hstage, by rw [hseq, hpins], ?_⟩
  have hstep : step s = .next (((s.capture s.pins.slots).setStage .normalize).withQueue
      (programBytes normalizeProgram) qs) := by
    rw [step_of_ops_nil s (hpins ▸ hreset) ho, s.advance_of_waiting hg, if_pos (hpins ▸ hstart)]
    exact congrArg (fun rs => Host.Outcome.next (((s.capture s.pins.slots).setStage .normalize).withQueue
      (programBytes normalizeProgram) rs)) (congrArg List.tail hinputs)
  have hrun := (ReachesIn.of_step hstep).trans (reachesIn_operation _ qs hq rfl)
  rw [← State.encodeAll_of_not_busy s hb] at hrun
  have hlast : { s.encodeAll with inputs := s.inputs.drop 662 } = s.encodeAll.withQueue [] (qs.drop 661) := by
    rw [State.withQueue, ← ho, ← hops, hinputs, List.drop_succ_cons]
  rw [hlast]
  exact hrun

/-- Settles O56: a BUSY block in the pipeline performs an operation of its stage or advances, and either leaves less to
do. -/
theorem operationWaitsOnlyForTheConsumer : Obligations.OperationWaitsOnlyForTheConsumer := by
  intro s h hb hr hready
  obtain ⟨is, hops, hmem, hemit⟩ := h.ops_eq hb
  cases is with
  | nil => exact ⟨_, step_of_ops_nil s hr hops, s.remaining_advance_lt h hb hops hready⟩
  | cons i is =>
    have hi := hmem i List.mem_cons_self
    obtain ⟨u, hu⟩ := exec_next_of_wf i (s.setOps (programBytes is)) (wf_of_mem_pipelineOperations i hi)
    obtain ⟨t, hstep, hstage, -, hrest, -⟩ := step_of_program s u i is hr hops hi hu
    have hlength : s.ops.length = t.ops.length + 2 := by
      rw [hops, hrest, programBytes_length, programBytes_length, List.length_cons]
      omega
    obtain ⟨hlt, hne⟩ := s.remaining_lt_of_operation t hb (fun he => absurd (hemit he) nofun) hstage hlength
    exact ⟨t, hstep, hlt, fun h0 => absurd h0 hne⟩

/-- Settles O5: the offered word is taken when the consumer is ready, and otherwise the block stays as it is. -/
theorem outputWordsAreOfferedUntilTaken : Obligations.OutputWordsAreOfferedUntilTaken := by
  intro s hr ho hg hk
  refine ⟨s.outValid_of_emit hg hk, beq_iff_eq, beq_iff_eq, _, step_of_ops_nil s hr ho, ?_⟩
  rw [s.advance_of_emit hg, s.wordTaken_of_room hk]
  cases s.pins.outReady with
  | true => exact ⟨fun _ => ⟨rfl, rfl, by rw [hg]; rfl⟩, nofun, rfl, rfl, rfl, rfl, rfl, rfl⟩
  | false => exact ⟨nofun, fun _ => ⟨rfl, rfl, hg, rfl⟩, rfl, rfl, rfl, rfl, rfl, rfl⟩

/-- Settles O6: what the decoder reads is performed, and a well-formed operation goes on. -/
theorem stepPerformsTheDecodedOperation : Obligations.StepPerformsTheDecodedOperation := by
  intro s i rest hr hd hi
  obtain ⟨t, ht⟩ := exec_next_of_wf i (s.setOps rest) hi
  have hne : s.ops ≠ [] := fun ho => by
    rw [ho] at hd
    exact nomatch hd
  refine ⟨t, ht, ?_⟩
  rw [step_of_ops_ne_nil s hr hne, s.perform_of_decode i rest hd, ht]
  rfl

end Sys2Proof.Machine
end

section
/-! SUPPORT. Which operations stop: EMIT.FRAME alone has a condition on its operand (R166), so an ill-formed operation is
one, and it stops exactly where its length runs past the frame (log entry 10). -/

namespace Sys2Proof.Machine

theorem exec_emitFrame_within (f : FrameName) (n : Nat) (s : State) (hn : n ≤ f.length) :
    exec (.emitFrame f n) s = .next (s.emitFrame f n) := if_pos hn

theorem exec_emitFrame_overrun (f : FrameName) (n : Nat) (s : State) (hn : f.length < n) :
    exec (.emitFrame f n) s = .fault (.noSuchOffset f f.length) := if_neg (Nat.not_le_of_gt hn)

theorem eq_emitFrame_of_not_wf (i : Instr) (hi : i.wf ≠ true) : ∃ f n, i = .emitFrame f n := by
  cases i
  case emitFrame f n => exact ⟨f, n, rfl⟩
  all_goals exact absurd rfl hi

end Sys2Proof.Machine
end

section
/-! The statement about the operations that stop (60_exceptions.md). -/

namespace Sys2Proof.Machine

/-- Settles O60: an operation that stops is ill-formed, so it is an EMIT.FRAME, and one whose length stays within its
frame goes on. -/
theorem everyOperationCompletes : Obligations.EveryOperationCompletes := by
  refine ⟨exec_next_of_wf, exec_emitFrame_overrun, fun i s hstop => ?_⟩
  have hill : i.wf ≠ true := fun hi => hstop (exec_next_of_wf i s hi)
  obtain ⟨f, n, rfl⟩ := eq_emitFrame_of_not_wf i hill
  exact ⟨f, n, rfl, Nat.lt_of_not_ge fun hn => hstop ⟨_, exec_emitFrame_within f n s hn⟩⟩

end Sys2Proof.Machine
end

section
/-! The statement about the reset input (70_reset_and_hazards.md section 1): a reset differs from the reset state in
SUBST, whose presence stays, and in the inputs. -/

namespace Sys2Proof.Machine

theorem State.applyReset_subst (s : State) : s.applyReset.subst = s.subst.map fun _ => 0 := rfl

theorem State.eq_zero_of_applyReset_subst (s : State) (w : BitVec 9) (hw : s.applyReset.subst = some w) : w = 0 := by
  rw [s.applyReset_subst] at hw
  obtain ⟨_, _, hzero⟩ := Option.map_eq_some_iff.mp hw
  exact hzero.symm

theorem State.applyReset_tick_atReset (s : State) : s.applyReset.tick.AtReset := by
  obtain ⟨hstage, hk, hraw, htemperature, hautotemp, hfan, hswing, hstate, hmode, hontimer, hofftimer, hstreamer, ht,
    hfa, hfb, _, hseq, hout⟩ := resetStateHoldsTheTableValues
  exact ⟨hstage, hk, hraw, htemperature, hautotemp, hfan, hswing, hstate, hmode, hontimer, hofftimer, hstreamer, ht,
    hfa, hfb, s.eq_zero_of_applyReset_subst, hseq, hout⟩

/-- Settles O2: a step with reset asserted is a reset, whatever the state. -/
theorem resetInputReachesTheTableValues : Obligations.ResetInputReachesTheTableValues :=
  fun s hr => ⟨_, step_of_reset s hr, s.applyReset_tick_atReset, rfl⟩

end Sys2Proof.Machine
end
